-- ==== Sys2Proof/Word.lean ====
section
/-! DEFINITION. The word types of the block and the reduction of an exact integer into a register
(spec/00_scope.md R20 to R22). -/

namespace Sys2Proof

/-- A 32-bit word: `CMD`, `ARG`, `RESP`, and every phase and step register (R20, R80). -/
abbrev Word := BitVec 32

/-- `trunc_N(v) = v mod 2^N`, the reduction made when a rule writes an unsigned register (R21). -/
def truncU (n : Nat) (v : Nat) : BitVec n := BitVec.ofNat n v

/-- `strunc_N(v)`, the two's-complement reduction made when a rule writes a signed register (R21);
the register holds the bits, `BitVec.toInt` reads them back as a signed number. -/
def truncS (n : Nat) (v : Int) : BitVec n := BitVec.ofInt n v

end Sys2Proof
end

