-- ==== Sys2Proof/Syntax.lean ====
section
/-! DEFINITION. The commands of the block (spec/30_encoding.md R82, R83), the transaction that carries
one (R80), and what the host can present to the block (spec/70_reset_and_hazards.md R209). -/

namespace Sys2Proof

/-- The parameter class `CLS`: VOICE or FILTER (R34). -/
inductive ParamClass where
  | voice
  | filter
deriving DecidableEq, Repr

/-- The waveform `KIND`, and the value of the global register `WAVE` (R42, R140). -/
inductive Wave where
  | saw
  | sine
  | triangle
  | square
deriving DecidableEq, Repr

/-- One constructor per row of spec/opcode_table.json, in the table's order. Operands are the fields of
R82 at their widths; the timestamp `ts` is the transaction's `ARG` (R89). -/
inductive Instr where
  /-- INIT: initialise the envelope engine (R101). -/
  | init (dbg : Bool)
  /-- GATEON: start a note on a slot and re-arm the filter envelope (R102). -/
  | gateOn (slot : BitVec 8)
  /-- GATEOFF: end a note on a slot (R103). -/
  | gateOff (slot : BitVec 8)
  /-- SETATK: set the attack step of a class (R104). -/
  | setAtk (cls : ParamClass) (raw : BitVec 12)
  /-- SETDEC: set the decay step of a class (R105). -/
  | setDec (cls : ParamClass) (raw : BitVec 12)
  /-- SETREL: set the release step of a class (R106). -/
  | setRel (cls : ParamClass) (raw : BitVec 12)
  /-- SETSUS: set the sustain level of a class (R107). -/
  | setSus (cls : ParamClass) (level : BitVec 12)
  /-- SELWAVE: select the active waveform (R140). -/
  | selWave (kind : Wave)
  /-- SETFREQ: set a slot's carrier frequency (R141). -/
  | setFreq (slot : BitVec 8) (pitch : BitVec 16) (ts : Word)
  /-- SETFMFREQ: set a slot's carrier and modulator frequencies (R142). -/
  | setFmFreq (slot : BitVec 8) (pitch : BitVec 16) (ts : Word)
  /-- SETMODRATIO: set the modulator-to-carrier ratio (R143). -/
  | setModRatio (ratio : BitVec 16)
  /-- SETPW: set the square wave's pulse width (R144). -/
  | setPw (width : BitVec 12)
  /-- ENVSTEP: advance one envelope slot by one tick (R120). -/
  | envStep (slot : BitVec 8) (cls : ParamClass)
  /-- OSCSTEP: advance one oscillator slot on the simple path (R151). -/
  | oscStep (slot : BitVec 8)
  /-- OSCSTEPFM: advance one oscillator slot on the phase-modulation path (R152). -/
  | oscStepFm (slot : BitVec 8)
deriving DecidableEq, Repr

/-- A command transaction: the command word `CMD` and the argument word `ARG` (R80). -/
structure Command where
  cmd : Word
  arg : Word
deriving DecidableEq, Repr

/-- What the host can present to the block between two commands (R209): a command transaction, or a
pulse on the reset input (R190). -/
inductive HostInput where
  | command (c : Command)
  | reset
deriving DecidableEq, Repr

end Sys2Proof
end

