-- ==== Sys2Proof/Config.lean ====
section
/-! DEFINITION. The parameters of spec/00_scope.md section 4: the constants the spec decides, and the
configuration record that holds every OPEN parameter at its domain (spec/92_eei_decisions.md, OPEN table). -/

namespace Sys2Proof

/-- `P`, the fraction width of every phase accumulator (R8). -/
abbrev Config.precisionBits : Nat := 10

/-- `ENV_RANGE`, the number of entries of the envelope table (R9). -/
abbrev Config.envRange : Nat := 4096

/-- `VTIM`, the envelope phase bound, `ENV_RANGE << P` (R10). -/
abbrev Config.vtim : Nat := 4194304

/-- `TICK_RATE`, ticks per second (R11, decision D10). -/
abbrev Config.tickRate : Nat := 25000

/-- `DUR_TICKS_ATTACK` (R12, decision D11). -/
abbrev Config.durTicksAttack : Nat := 50000

/-- The largest duration R12 allows, `(ENV_RANGE^2 / 4095) << P`. -/
abbrev Config.durTicksMax : Nat := 4195328

/-- `RATE_FLOOR`, to which a smaller rate value is clamped (R13). -/
abbrev Config.rateFloor : Nat := 5

/-- `RATE_MAX`, the largest rate value (R13). -/
abbrev Config.rateMax : Nat := 4095

/-- `RANGE_w`, the number of table indices of waveform w (R16, decision D12; DESIGN CHOICE, log 2: the
decided values stand, one name per waveform). -/
abbrev Config.range : Wave → Nat
  | .saw => 4096
  | .sine => 4096
  | .triangle => 4096
  | .square => 4096

/-- `MOD_RATIO_DEN` (R17). -/
abbrev Config.modRatioDen : Nat := 256

/-- `FM_SCALE_SHIFT` (R19, decision D21). -/
abbrev Config.fmScaleShift : Nat := 10

/-- The configuration record: every OPEN parameter, each typed by its domain, so that a record outside
the domains of R12 to R19 cannot be built. Plain data; no step changes it (R209). -/
structure Config where
  /-- `MAXVOICE - 1` (R14: 1 ≤ MAXVOICE ≤ 255) -/
  maxVoiceLessOne : Fin 255
  /-- `DUR_TICKS_DECAY - 1` (R12) -/
  durDecayLessOne : Fin 4195328
  /-- `DUR_TICKS_RELEASE - 1` (R12) -/
  durReleaseLessOne : Fin 4195328
  /-- `DUR_TICKS_FMENV - 1` (R12) -/
  durFmEnvLessOne : Fin 4195328
  /-- `ENV_TABLE`, values in 0 .. ENV_RANGE (R18) -/
  envTable : Vector (Fin 4097) 4096
  /-- `SAW_TABLE`, signed 16-bit values (R18) -/
  sawTable : Vector (BitVec 16) 4096
  /-- `SINE_TABLE`, signed 16-bit values (R18) -/
  sineTable : Vector (BitVec 16) 4096
  /-- `TRI_TABLE`, signed 16-bit values (R18) -/
  triTable : Vector (BitVec 16) 4096
  /-- `FM_START_DEPTH` in 0 .. 65535 (R19) -/
  fmStartDepth : Fin 65536
  /-- `FM_END_DEPTH` in 0 .. 65535 (R19) -/
  fmEndDepth : Fin 65536
  /-- `FM_ENV_RAW - 5` (R19: in 5 .. 4095) -/
  fmEnvRawLessFive : Fin 4091
  /-- `FULL_SCALE` in 0 .. 32767 (R19) -/
  fullScale : Fin 32768
deriving DecidableEq, Repr, Inhabited

/-- `MAXVOICE`, the number of voice slots (R14). -/
def Config.maxVoice (c : Config) : Nat := c.maxVoiceLessOne.val + 1

/-- `FILTER_SLOT = MAXVOICE`, the envelope slot of the filter (R15). -/
def Config.filterSlot (c : Config) : Nat := c.maxVoice

/-- `DUR_TICKS_DECAY` (R12). -/
def Config.durTicksDecay (c : Config) : Nat := c.durDecayLessOne.val + 1

/-- `DUR_TICKS_RELEASE` (R12). -/
def Config.durTicksRelease (c : Config) : Nat := c.durReleaseLessOne.val + 1

/-- `DUR_TICKS_FMENV` (R12). -/
def Config.durTicksFmEnv (c : Config) : Nat := c.durFmEnvLessOne.val + 1

/-- `FM_ENV_RAW` (R19). -/
def Config.fmEnvRaw (c : Config) : Nat := c.fmEnvRawLessFive.val + 5

/-- The configuration of the hardware at hand. No source gives it (spec/92_eei_decisions.md, OPEN table),
so it is an opaque constant: nothing can be proved of it but that it lies in the domains of R12 to R19
(DESIGN CHOICE, log 1; safe). -/
opaque Config.hardware : Config

end Sys2Proof
end

