-- ==== Sys2Proof/WellFormed.lean ====
section
/-! DEFINITION. When a decoded command is well formed for a block of `MAXVOICE` voices: its slot lies in
its slot range (spec/30_encoding.md R83, R87). Every other operand is legal at every value its field
holds (R82, R90, spec/42_oscillator.md R158). -/

namespace Sys2Proof

/-- The slot index a command names, with its slot space, if its row of R83 has a slot range. -/
inductive SlotOperand where
  /-- the row has no slot range -/
  | noSlot
  /-- an envelope slot, legal in 0 .. MAXVOICE -/
  | envelope (slot : BitVec 8)
  /-- an oscillator slot, legal in 0 .. MAXVOICE-1 -/
  | oscillator (slot : BitVec 8)
deriving DecidableEq, Repr

/-- The column "slot range" of R83. -/
def Instr.slotOperand : Instr → SlotOperand
  | .init _ => .noSlot
  | .gateOn slot => .envelope slot
  | .gateOff slot => .envelope slot
  | .setAtk _ _ => .noSlot
  | .setDec _ _ => .noSlot
  | .setRel _ _ => .noSlot
  | .setSus _ _ => .noSlot
  | .selWave _ => .noSlot
  | .setFreq slot _ _ => .oscillator slot
  | .setFmFreq slot _ _ => .oscillator slot
  | .setModRatio _ => .noSlot
  | .setPw _ => .noSlot
  | .envStep slot _ => .envelope slot
  | .oscStep slot => .oscillator slot
  | .oscStepFm slot => .oscillator slot

/-- The command's slot is inside the range its row accepts (R87). -/
def Instr.wellFormed (maxVoice : Nat) (i : Instr) : Bool :=
  match i.slotOperand with
  | .noSlot => true
  | .envelope slot => decide (slot.toNat ≤ maxVoice)
  | .oscillator slot => decide (slot.toNat < maxVoice)

end Sys2Proof
end

