-- ==== Sys2Proof/Decode.lean ====
section
/-! DEFINITION. The command encoding WTS-CORE-CMD-1 (spec/30_encoding.md): the opcode map as a list of
rows, the decoder (total, rejecting by name), and the encoder. The third test of R88, the slot range,
needs `MAXVOICE` and is made by the command's meaning. -/

namespace Sys2Proof

/-- The code of a parameter class, VOICE = 0, FILTER = 1 (R34). -/
def ParamClass.bit : ParamClass → BitVec 1
  | .voice => 0
  | .filter => 1

/-- The parameter class of a `CLS` bit (R34). -/
def ParamClass.ofBit (b : BitVec 1) : ParamClass := if b = 0 then .voice else .filter

/-- The code of a waveform: Saw 0, Sine 1, Triangle 2, Square 3 (R42). -/
def Wave.code : Wave → BitVec 2
  | .saw => 0
  | .sine => 1
  | .triangle => 2
  | .square => 3

/-- The waveform of a `KIND` field; all four values are legal (R90). -/
def Wave.ofCode (k : BitVec 2) : Wave :=
  if k = 0 then .saw else if k = 1 then .sine else if k = 2 then .triangle else .square

/-- `OP`, bits 31:28 (R81). -/
def opField (cmd : Word) : BitVec 4 := cmd.extractLsb' 28 4

/-- `SLOT`, bits 27:20 (R81). -/
def slotField (cmd : Word) : BitVec 8 := cmd.extractLsb' 20 8

/-- `CLS`, bit 19 (R81). -/
def clsField (cmd : Word) : BitVec 1 := cmd.extractLsb' 19 1

/-- `IMM`, bits 15:0 (R81). -/
def immField (cmd : Word) : BitVec 16 := cmd.extractLsb' 0 16

/-- `RAW`, `LEVEL` and `WIDTH`, `IMM[11:0]` (R82). -/
def imm12Field (cmd : Word) : BitVec 12 := cmd.extractLsb' 0 12

/-- `KIND`, `IMM[1:0]` (R82). -/
def kindField (cmd : Word) : BitVec 2 := cmd.extractLsb' 0 2

/-- `DBG`, `IMM[0]` (R82). -/
def dbgField (cmd : Word) : Bool := cmd.getLsbD 0

/-- One row of the opcode map of R83: a word belongs to the row with its `OP`, and is a command of it
when `(CMD & mask) = match`. -/
structure OpcodeRow where
  mnemonic : String
  matchBits : Word
  mask : Word
  build : Command → Instr

/-- The opcode map of R83; opcode 0x0 has no row (R85). -/
def opcodeRows : List OpcodeRow :=
  [ ⟨"INIT",        0x10000000#32, 0xFFFFFFFE#32, fun c => .init (dbgField c.cmd)⟩,
    ⟨"GATEON",      0x20000000#32, 0xF00FFFFF#32, fun c => .gateOn (slotField c.cmd)⟩,
    ⟨"GATEOFF",     0x30000000#32, 0xF00FFFFF#32, fun c => .gateOff (slotField c.cmd)⟩,
    ⟨"SETATK",      0x40000000#32, 0xFFF7F000#32, fun c => .setAtk (.ofBit (clsField c.cmd)) (imm12Field c.cmd)⟩,
    ⟨"SETDEC",      0x50000000#32, 0xFFF7F000#32, fun c => .setDec (.ofBit (clsField c.cmd)) (imm12Field c.cmd)⟩,
    ⟨"SETREL",      0x60000000#32, 0xFFF7F000#32, fun c => .setRel (.ofBit (clsField c.cmd)) (imm12Field c.cmd)⟩,
    ⟨"SETSUS",      0x70000000#32, 0xFFF7F000#32, fun c => .setSus (.ofBit (clsField c.cmd)) (imm12Field c.cmd)⟩,
    ⟨"SELWAVE",     0x80000000#32, 0xFFFFFFFC#32, fun c => .selWave (.ofCode (kindField c.cmd))⟩,
    ⟨"SETFREQ",     0x90000000#32, 0xF00F0000#32, fun c => .setFreq (slotField c.cmd) (immField c.cmd) c.arg⟩,
    ⟨"SETFMFREQ",   0xA0000000#32, 0xF00F0000#32, fun c => .setFmFreq (slotField c.cmd) (immField c.cmd) c.arg⟩,
    ⟨"SETMODRATIO", 0xB0000000#32, 0xFFFF0000#32, fun c => .setModRatio (immField c.cmd)⟩,
    ⟨"SETPW",       0xC0000000#32, 0xFFFFF000#32, fun c => .setPw (imm12Field c.cmd)⟩,
    ⟨"ENVSTEP",     0xD0000000#32, 0xF007FFFF#32, fun c => .envStep (slotField c.cmd) (.ofBit (clsField c.cmd))⟩,
    ⟨"OSCSTEP",     0xE0000000#32, 0xF00FFFFF#32, fun c => .oscStep (slotField c.cmd)⟩,
    ⟨"OSCSTEPFM",   0xF0000000#32, 0xF00FFFFF#32, fun c => .oscStepFm (slotField c.cmd)⟩ ]

/-- The row of R83 with opcode `op`, if the opcode is not reserved. -/
def rowOf (op : BitVec 4) : Option OpcodeRow :=
  opcodeRows.find? fun r => opField r.matchBits == op

/-- Why a word is no command: the first two tests of R88. -/
inductive DecodeError where
  /-- `OP` is 0x0 (R85) -/
  | reservedOpcode
  /-- a must-be-zero bit of the named row is set (R86) -/
  | reservedBits (mnemonic : String)
deriving DecidableEq, Repr

/-- The decoder: the first two tests of R88, in its order, then the row's operands. Total on all 2^32
command words (R90). -/
def decode (c : Command) : Except DecodeError Instr :=
  match rowOf (opField c.cmd) with
  | none => .error .reservedOpcode
  | some r => if c.cmd &&& r.mask = r.matchBits then .ok (r.build c) else .error (.reservedBits r.mnemonic)

/-- A command word from its fields `{OP, SLOT, CLS, RSV = 0, IMM}` (R81). -/
def cmdWord (op : BitVec 4) (slot : BitVec 8) (cls : BitVec 1) (imm : BitVec 16) : Word :=
  op ++ slot ++ cls ++ 0#3 ++ imm

/-- The encoder: the transaction of a command, unused fields and an unread `ARG` being 0 (R83, R95). -/
def encode : Instr → Command
  | .init dbg => ⟨cmdWord 0x1 0 0 (if dbg then 1 else 0), 0⟩
  | .gateOn slot => ⟨cmdWord 0x2 slot 0 0, 0⟩
  | .gateOff slot => ⟨cmdWord 0x3 slot 0 0, 0⟩
  | .setAtk cls raw => ⟨cmdWord 0x4 0 cls.bit (raw.setWidth 16), 0⟩
  | .setDec cls raw => ⟨cmdWord 0x5 0 cls.bit (raw.setWidth 16), 0⟩
  | .setRel cls raw => ⟨cmdWord 0x6 0 cls.bit (raw.setWidth 16), 0⟩
  | .setSus cls level => ⟨cmdWord 0x7 0 cls.bit (level.setWidth 16), 0⟩
  | .selWave kind => ⟨cmdWord 0x8 0 0 (kind.code.setWidth 16), 0⟩
  | .setFreq slot pitch ts => ⟨cmdWord 0x9 slot 0 pitch, ts⟩
  | .setFmFreq slot pitch ts => ⟨cmdWord 0xA slot 0 pitch, ts⟩
  | .setModRatio ratio => ⟨cmdWord 0xB 0 0 ratio, 0⟩
  | .setPw width => ⟨cmdWord 0xC 0 0 (width.setWidth 16), 0⟩
  | .envStep slot cls => ⟨cmdWord 0xD slot cls.bit 0, 0⟩
  | .oscStep slot => ⟨cmdWord 0xE slot 0 0, 0⟩
  | .oscStepFm slot => ⟨cmdWord 0xF slot 0 0, 0⟩

/-- Does the command read `ARG`? Only SETFREQ and SETFMFREQ do (R89). -/
def Instr.readsArg : Instr → Bool
  | .init _ => false
  | .gateOn _ => false
  | .gateOff _ => false
  | .setAtk _ _ => false
  | .setDec _ _ => false
  | .setRel _ _ => false
  | .setSus _ _ => false
  | .selWave _ => false
  | .setFreq _ _ _ => true
  | .setFmFreq _ _ _ => true
  | .setModRatio _ => false
  | .setPw _ => false
  | .envStep _ _ => false
  | .oscStep _ => false
  | .oscStepFm _ => false

/-- The transaction whose bits are `w mod 2^nbits`: `CMD` is bits 31:0 and `ARG` bits 63:32, every bit
above `nbits` being 0. Words cross the interface whole (R64), so no byte order enters (log 9). -/
def commandOfBits (nbits w : Nat) : Command :=
  ⟨BitVec.ofNat 32 (w % 2 ^ nbits), BitVec.ofNat 32 (w % 2 ^ nbits / 2 ^ 32)⟩

/-- The instruction the decoder reads from the bits `w` of an opcode-table row. -/
def decodeTableWord (nbits w : Nat) : Option Instr := (decode (commandOfBits nbits w)).toOption

end Sys2Proof
end

