-- ==== Sys2Proof/Machine/State.lean ====
section
/-! DEFINITION. The state of the block (spec/10_state.md), the reasons a step can stop, and the state
after reset (R52, R190). -/

namespace Sys2Proof.Machine

/-- The mode of an envelope slot (R37; codes 6 and 7 are never written, R51). -/
inductive Mode where
  | stop
  | attack
  | decay
  | sustain
  | release
  | stopping
deriving DecidableEq, Repr

/-- `EP[c]`, one envelope parameter set (R33). -/
structure EnvParams where
  attackStep : Word
  decayStep : Word
  releaseStep : Word
  sustainLevel : BitVec 12
deriving DecidableEq, Repr

/-- `ENV[s]`, one entry of the envelope state file (R36). -/
structure EnvSlot where
  phase : Word
  mode : Mode
  output : BitVec 16
  releaseStartLevel : BitVec 16
deriving DecidableEq, Repr

/-- `OSC[s]`, one entry of the oscillator state file (R39). `volumeDiff`, `currentModVolume` and
`sample` are signed: `BitVec.toInt` reads them. -/
structure OscSlot where
  note : BitVec 16
  carrierStep : Word
  carrierPhase : Word
  modulatorStep : Word
  modulatorPhase : Word
  modEnvPhase : Word
  modEnvStep : Word
  volumeDiff : BitVec 32
  currentModVolume : BitVec 32
  sample : BitVec 16
  activationTimestamp : Word
deriving DecidableEq, Repr

/-- The whole state. The fields from `epVoice` to `faultCmd` are the architectural state of R30;
`cfg`, `inbox` and `responses` are the model's own (log 1, log 3, log 4). -/
structure State where
  /-- the configuration record (00_scope.md section 4); fixed for the whole run (R209) -/
  cfg : Config
  /-- `EP[VOICE]` (R33) -/
  epVoice : EnvParams
  /-- `EP[FILTER]` (R33) -/
  epFilter : EnvParams
  /-- `ENV[0 .. MAXVOICE]` (R36) -/
  env : List EnvSlot
  /-- `OSC[0 .. MAXVOICE-1]` (R39) -/
  osc : List OscSlot
  /-- `WAVE` (R42) -/
  wave : Wave
  /-- `MOD_RATIO` (R43) -/
  modRatio : BitVec 16
  /-- `PULSE_WIDTH` (R44) -/
  pulseWidth : BitVec 12
  /-- the cells of `STATUS` (R45); commands and the host see it through `State.readStatus` -/
  status : Word
  /-- `FAULT_CMD` (R46) -/
  faultCmd : Word
  /-- what the host has presented and the block has not accepted, oldest first (R69, R209) -/
  inbox : List HostInput
  /-- the response words returned so far, newest first (R84, R209) -/
  responses : List Word
deriving DecidableEq, Repr

/-- The tables of R18. -/
inductive Table where
  | env
  | saw
  | sine
  | tri
deriving DecidableEq, Repr

/-- Why the machine could stop. -/
inductive Fault where
  /-- A table read at an index outside the table: R62 says a model that meets one has found a defect of
  the spec and must treat the read as a fault, never as a value. Raised by ENVSTEP, OSCSTEP and
  OSCSTEPFM when a read answers no value; the rules keep every index in range, so no state raises it.
  Safe. -/
  | tableIndex (table : Table) (index : Nat)
deriving DecidableEq, Repr

/-- Why an instruction could have no meaning in the model. -/
inductive Refusal where
  /-- An instruction whose meaning is not written yet; raised by an arm of `exec` alone. Safe. No arm of
  this model raises it: the block refuses no command word (R188). -/
  | notModelled (mnemonic : String)
deriving DecidableEq, Repr

/-- The outcome of a step or of a command's meaning. -/
abbrev Result := Host.Outcome State Fault Refusal

/-- A parameter set after reset, and after INIT (R33, R101). -/
def EnvParams.reset : EnvParams := ⟨0, 0, 0, 0⟩

/-- An envelope entry after reset, and after INIT (R36, R101). -/
def EnvSlot.reset : EnvSlot := ⟨0, .stop, 0, 0⟩

/-- An oscillator entry after reset (R39). -/
def OscSlot.reset : OscSlot := ⟨0, 0, 0, 0, 0, 0, 0, 0, 0, 0, 0⟩

/-- The state after hardware reset of a block configured as `c` (R52, R190): every field 0, every mode
STOP, `WAVE` Saw; nothing presented and nothing returned yet. -/
def State.resetWith (c : Config) : State where
  cfg := c
  epVoice := .reset
  epFilter := .reset
  env := List.replicate (c.maxVoice + 1) .reset
  osc := List.replicate c.maxVoice .reset
  wave := .saw
  modRatio := 0
  pulseWidth := 0
  status := 0
  faultCmd := 0
  inbox := []
  responses := []

/-- The state after hardware reset of the hardware at hand, whose configuration is the opaque
`Config.hardware`. -/
def State.reset : State := State.resetWith Config.hardware

end Sys2Proof.Machine
end

