-- ==== Sys2Proof/Machine/Flags.lean ====
section
/-! DEFINITION. The only flags of the block: the sticky bits of `STATUS` (spec/10_state.md R45, R47;
spec/60_exceptions.md R171). No command sets a flag as a side effect of arithmetic. -/

namespace Sys2Proof.Machine

/-- The fault kinds of R171. -/
inductive FaultKind where
  /-- `ERR_OPCODE`: the reserved opcode 0x0 -/
  | opcode
  /-- `ERR_RSVD`: a must-be-zero bit is set -/
  | rsvd
  /-- `ERR_SLOT`: a slot outside the command's range -/
  | slot
deriving DecidableEq, Repr

/-- The cause code, which is the index of the kind's `STATUS` bit (R171). -/
def FaultKind.code : FaultKind → Nat
  | .opcode => 0
  | .rsvd => 1
  | .slot => 2

/-- `1 << code(kind)` (R172). -/
def FaultKind.statusBit (k : FaultKind) : Word := 1#32 <<< k.code

/-- The bits of `STATUS` that exist; bits 31:3 are hardwired 0 (R45; DEDUCED, log 8). -/
def statusMask : Word := 0x7#32

/-- `STATUS` as every reader sees it: the hardwired bits read 0 (R45). -/
def State.readStatus (s : State) : Word := s.status &&& statusMask

/-- A write of `STATUS`: the hardwired bits discard what is written to them (R45). -/
def State.writeStatus (s : State) (v : Word) : State := { s with status := v &&& statusMask }

/-- The fault kind of a word that is no command (R171, R173). -/
def decodeErrorKind : DecodeError → FaultKind
  | .reservedOpcode => .opcode
  | .reservedBits _ => .rsvd

end Sys2Proof.Machine
end

