-- ==== Sys2Proof/Machine/Operands.lean ====
section
/-! DEFINITION. The values the commands compute from their operands, the settings and the tables, each
on exact integers with one reduction at the register write (spec/00_scope.md R21 to R23). Division of
a `Nat` and division of an `Int` by a positive number round down, `%` is Euclidean and `>>>` is the
arithmetic shift, as R22 has them (DEDUCED, log 15). -/

namespace Sys2Proof.Machine

/-- The clamp of a rate value to `RATE_FLOOR` (R104 to R106, R108). -/
def clampRate (raw : BitVec 12) : Nat := max raw.toNat Config.rateFloor

/-- `ComputeStep(raw, durTicks)` (R100). -/
def computeStep (raw durTicks : Nat) : Word :=
  let q := Config.envRange * Config.envRange / raw
  truncU 32 ((q <<< Config.precisionBits) / durTicks)

/-- The carrier step of a pitch over a table of `range` indices (R141, R142). -/
def carrierStepOf (range : Nat) (pitch : BitVec 16) : Word :=
  truncU 32 (((range * pitch.toNat) <<< Config.precisionBits) / Config.tickRate)

/-- The modulator step of a carrier step at a frequency ratio in 1/256 units (R17, R142). -/
def modulatorStepOf (carrierStep : Word) (ratio : BitVec 16) : Word :=
  truncU 32 (carrierStep.toNat * ratio.toNat / Config.modRatioDen)

/-- `FM_START_DEPTH - FM_END_DEPTH`, signed (R142). -/
def volumeDiffOf (c : Config) : BitVec 32 := truncS 32 ((c.fmStartDepth.val : Int) - (c.fmEndDepth.val : Int))

/-- The step of the modulation-depth envelope (R142). -/
def modEnvStepOf (c : Config) : Word := computeStep c.fmEnvRaw c.durTicksFmEnv

/-- A table read; an index outside the table is a fault, never a value (R62; DEDUCED, log 10). -/
def tableAt {α : Type} (name : Table) (table : Vector α 4096) (i : Nat) : Except Fault α :=
  match table[i]? with
  | some v => .ok v
  | none => .error (.tableIndex name i)

/-- `EnvRead(i) = ENV_TABLE(i)` (R23). -/
def envRead (c : Config) (i : Nat) : Except Fault Nat := (tableAt .env c.envTable i).map Fin.val

/-- `DecRead(i) = EnvRead(ENV_RANGE - 1 - i)`, for `i < ENV_RANGE` (R121). -/
def decRead (c : Config) (i : Nat) : Except Fault Nat :=
  if i < Config.envRange then envRead c (Config.envRange - 1 - i) else .error (.tableIndex .env i)

/-- `WaveRead(Sine, i) = SINE_TABLE(i)` (R23). -/
def sineRead (c : Config) (i : Nat) : Except Fault (BitVec 16) := tableAt .sine c.sineTable i

/-- The pulse-width threshold of the square waveform, clamped below a full period (R150). -/
def squareThreshold (pulseWidth : BitVec 12) : Nat :=
  min ((pulseWidth.toNat * Config.range .square) >>> 12) (Config.range .square - 1)

/-- The sample of the square waveform at an index (R150). -/
def squareSample (c : Config) (pulseWidth : BitVec 12) (i : Nat) : BitVec 16 :=
  if i < squareThreshold pulseWidth then truncS 16 (c.fullScale.val : Int)
  else truncS 16 (-(c.fullScale.val : Int))

/-- The sample of a waveform at an index: a table read, or the square rule (R151). -/
def waveSample (c : Config) (pulseWidth : BitVec 12) (w : Wave) (i : Nat) : Except Fault (BitVec 16) :=
  match w with
  | .saw => tableAt .saw c.sawTable i
  | .sine => sineRead c i
  | .triangle => tableAt .tri c.triTable i
  | .square => .ok (squareSample c pulseWidth i)

/-- `(phase + step) & ((range << P) - 1)` (R151, R154). -/
def advancePhase (range : Nat) (phase step : Word) : Word :=
  truncU 32 ((phase.toNat + step.toNat) &&& ((range <<< Config.precisionBits) - 1))

/-- `phase >> P`, the table index of a phase. -/
def phaseIndex (phase : Word) : Nat := phase.toNat >>> Config.precisionBits

/-- The modulation depth for a value `d` of the descending envelope table (R153). -/
def fmDepth (c : Config) (d : Nat) (volumeDiff : BitVec 32) : BitVec 32 :=
  truncS 32 ((c.fmEndDepth.val : Int) + ((d : Int) * volumeDiff.toInt) / (Config.envRange : Int))

/-- The depth once the modulation envelope has reached its bound, `FM_END_DEPTH` (R153). -/
def fmEndDepthOf (c : Config) : BitVec 32 := truncS 32 (c.fmEndDepth.val : Int)

/-- The phase offset, in table-index units, of a modulator sample at a depth (R155). -/
def fmOffset (m : BitVec 16) (depth : BitVec 32) : Nat :=
  ((((m.toInt * depth.toInt) >>> Config.fmScaleShift) >>> (1 : Nat)) % (Config.range .sine : Int)).toNat

/-- `zext_32` of an amplitude (R84). -/
def amplitudeResponse (output : BitVec 16) : Word := output.zeroExtend 32

/-- `sext_32` of a sample (R84). -/
def sampleResponse (sample : BitVec 16) : Word := sample.signExtend 32

end Sys2Proof.Machine
end

