-- ==== Sys2Proof/Machine/Ops.lean ====
section
/-! DEFINITION. The named operations over the state: the parameter sets, the two slot files, the response
port, the recording of a fault, the hardware reset and the status output. -/

namespace Sys2Proof.Machine

/-- `EP[c]` (R33). -/
def State.ep (s : State) : ParamClass → EnvParams
  | .voice => s.epVoice
  | .filter => s.epFilter

/-- `EP[c] <- p` (R33). -/
def State.setEp (s : State) (c : ParamClass) (p : EnvParams) : State :=
  match c with
  | .voice => { s with epVoice := p }
  | .filter => { s with epFilter := p }

/-- `ENV[i]` (R36). The file has `MAXVOICE + 1` entries in every state a run reaches; at an index it does
not hold, the answer is the reset entry (DESIGN CHOICE, log 7). -/
def State.envAt (s : State) (i : Nat) : EnvSlot := s.env.getD i .reset

/-- `ENV[i] <- e`; no entry is made where the file holds none (log 7). -/
def State.setEnvAt (s : State) (i : Nat) (e : EnvSlot) : State := { s with env := s.env.set i e }

/-- `OSC[i]` (R39), under the same convention (log 7). -/
def State.oscAt (s : State) (i : Nat) : OscSlot := s.osc.getD i .reset

/-- `OSC[i] <- o` (log 7). -/
def State.setOscAt (s : State) (i : Nat) (o : OscSlot) : State := { s with osc := s.osc.set i o }

/-- `RESP <- r`: the command's one response word is returned to the host (R80, R84). -/
def State.respond (s : State) (r : Word) : State := { s with responses := r :: s.responses }

/-- TAKING AN EXCEPTION: `RecordFault(kind)` for the command word `cmd` (R172). It transfers no control and
saves nothing else (R176), it stops nothing (R175), and there is no return from it (R177); only a
hardware reset clears what it records (R178). -/
def State.recordFault (s : State) (k : FaultKind) (cmd : Word) : State :=
  let s1 := if s.readStatus = 0 then { s with faultCmd := cmd } else s
  (s1.writeStatus (s.readStatus ||| k.statusBit)).respond 0

/-- A pulse on the reset input (R190): every piece of architectural state takes its reset value. The
configuration is fixed (R209), and what the host has presented or was given stays its own (log 5). -/
def State.hardwareReset (s : State) : State :=
  { State.resetWith s.cfg with inbox := s.inbox, responses := s.responses }

/-- The status output, `STATUS` and `FAULT_CMD`, which the host may read at any time (R80, R209). -/
def State.statusOutput (s : State) : Word × Word := (s.readStatus, s.faultCmd)

/-- The third test of R88 for a command on an envelope slot, 0 .. MAXVOICE (R87): the effect, or the
record of `ERR_SLOT` for the command's word, which is the encoding of the command (DEDUCED, log 6). -/
def inEnvRange (i : Instr) (slot : BitVec 8) (s : State) (effect : Result) : Result :=
  if slot.toNat ≤ s.cfg.maxVoice then effect else .next (s.recordFault .slot (encode i).cmd)

/-- The third test of R88 for a command on an oscillator slot, 0 .. MAXVOICE-1 (R87). -/
def inOscRange (i : Instr) (slot : BitVec 8) (s : State) (effect : Result) : Result :=
  if slot.toNat < s.cfg.maxVoice then effect else .next (s.recordFault .slot (encode i).cmd)

/-- Write back an envelope entry a step computed and return its amplitude (R84, R120); a faulting table
read stops the machine (R62). -/
def State.finishEnv (s : State) (slot : Nat) : Except Fault EnvSlot → Result
  | .ok e => .next ((s.setEnvAt slot e).respond (amplitudeResponse e.output))
  | .error f => .fault f

/-- Write back an oscillator entry a step computed and return its sample (R84, R151, R152); a faulting
table read stops the machine (R62). -/
def State.finishOsc (s : State) (slot : Nat) : Except Fault OscSlot → Result
  | .ok o => .next ((s.setOscAt slot o).respond (sampleResponse o.sample))
  | .error f => .fault f

end Sys2Proof.Machine
end

