-- ==== Sys2Proof/Machine/EnvelopeControl.lean ====
section
/-! DEFINITION. The control commands of the envelope engine (spec/40_envelope_control.md): INIT, GATEON,
GATEOFF, SETATK, SETDEC, SETREL, SETSUS. -/

namespace Sys2Proof.Machine

/-- The envelope engine at its initial values: every `ENV` entry and both `EP` sets zero (R101). -/
def State.initEnvelopes (s : State) : State :=
  { s with env := s.env.map fun _ => EnvSlot.reset, epVoice := .reset, epFilter := .reset }

/-- An envelope entry restarted at the attack: phase and mode are written, output and releaseStartLevel
are kept (R102). -/
def EnvSlot.attacked (e : EnvSlot) : EnvSlot := { e with phase := 0, mode := .attack }

/-- An envelope entry put into release from its current output (R103). -/
def EnvSlot.released (e : EnvSlot) : EnvSlot :=
  { e with releaseStartLevel := e.output, phase := 0, mode := .release }

/-- `ENV[i]` restarted at the attack (R102). -/
def State.attackSlot (s : State) (i : Nat) : State := s.setEnvAt i (s.envAt i).attacked

/-- INIT (R101). `DBG` has no effect on any state or response (R183; log 13). -/
def execInit (_dbg : Bool) (s : State) : Result := .next (s.initEnvelopes.respond 0)

/-- GATEON (R102): the slot and the shared filter envelope restart; with `SLOT = FILTER_SLOT` the two
writes hit one entry (R110). -/
def execGateOn (slot : BitVec 8) (s : State) : Result :=
  inEnvRange (.gateOn slot) slot s <|
    .next (((s.attackSlot slot.toNat).attackSlot s.cfg.filterSlot).respond 0)

/-- GATEOFF (R103); it does not touch the filter envelope unless `SLOT = FILTER_SLOT`. -/
def execGateOff (slot : BitVec 8) (s : State) : Result :=
  inEnvRange (.gateOff slot) slot s <|
    .next ((s.setEnvAt slot.toNat (s.envAt slot.toNat).released).respond 0)

/-- SETATK (R104). -/
def execSetAtk (cls : ParamClass) (raw : BitVec 12) (s : State) : Result :=
  let step := computeStep (clampRate raw) Config.durTicksAttack
  .next ((s.setEp cls { s.ep cls with attackStep := step }).respond 0)

/-- SETDEC (R105). -/
def execSetDec (cls : ParamClass) (raw : BitVec 12) (s : State) : Result :=
  let step := computeStep (clampRate raw) s.cfg.durTicksDecay
  .next ((s.setEp cls { s.ep cls with decayStep := step }).respond 0)

/-- SETREL (R106). -/
def execSetRel (cls : ParamClass) (raw : BitVec 12) (s : State) : Result :=
  let step := computeStep (clampRate raw) s.cfg.durTicksRelease
  .next ((s.setEp cls { s.ep cls with releaseStep := step }).respond 0)

/-- SETSUS (R107): no clamp and no conversion. -/
def execSetSus (cls : ParamClass) (level : BitVec 12) (s : State) : Result :=
  .next ((s.setEp cls { s.ep cls with sustainLevel := level }).respond 0)

end Sys2Proof.Machine
end

