-- ==== Sys2Proof/Machine/EnvelopeStep.lean ====
section
/-! DEFINITION. The per-tick envelope state machine (spec/41_envelope_step.md): one definition per mode
that computes, and ENVSTEP. Each arm forms the advanced phase `t` exactly and tests it against `VTIM`
before any table read (R122). -/

namespace Sys2Proof.Machine

/-- ATTACK (R123). On the crossing tick the output is kept and no table is read. -/
def attackTick (c : Config) (p : EnvParams) (e : EnvSlot) : Except Fault EnvSlot :=
  let t := e.phase.toNat + p.attackStep.toNat
  if t ≥ Config.vtim then .ok { e with phase := 0, mode := .decay }
  else
    match envRead c (t >>> Config.precisionBits) with
    | .ok a => .ok { e with phase := truncU 32 t, output := truncU 16 a }
    | .error f => .error f

/-- An entry that has entered SUSTAIN: phase 0, output at the sustain level (R124). -/
def EnvSlot.sustained (e : EnvSlot) (p : EnvParams) : EnvSlot :=
  { e with phase := 0, mode := .sustain, output := p.sustainLevel.zeroExtend 16 }

/-- DECAY (R124): the table is read in descending orientation, and every exit writes the sustain level. -/
def decayTick (c : Config) (p : EnvParams) (e : EnvSlot) : Except Fault EnvSlot :=
  let t := e.phase.toNat + p.decayStep.toNat
  if t ≥ Config.vtim then .ok (e.sustained p)
  else
    match decRead c (t >>> Config.precisionBits) with
    | .ok a =>
      if a ≤ p.sustainLevel.toNat then .ok (e.sustained p)
      else .ok { e with phase := truncU 32 t, output := truncU 16 a }
    | .error f => .error f

/-- SUSTAIN (R125): the sustain level is read afresh (R109). -/
def sustainTick (p : EnvParams) (e : EnvSlot) : EnvSlot :=
  { e with output := p.sustainLevel.zeroExtend 16 }

/-- An entry that has entered STOPPING: phase 0, output 0 (R126). -/
def EnvSlot.stopped (e : EnvSlot) : EnvSlot := { e with phase := 0, mode := .stopping, output := 0 }

/-- RELEASE (R126): the descending read scaled by `releaseStartLevel`, with the exit at 1 or below. -/
def releaseTick (c : Config) (p : EnvParams) (e : EnvSlot) : Except Fault EnvSlot :=
  let t := e.phase.toNat + p.releaseStep.toNat
  if t ≥ Config.vtim then .ok e.stopped
  else
    match decRead c (t >>> Config.precisionBits) with
    | .ok d =>
      let v := d * e.releaseStartLevel.toNat / Config.envRange
      if v ≤ 1 then .ok e.stopped
      else .ok { e with phase := truncU 32 t, output := truncU 16 v }
    | .error f => .error f

/-- One tick of an envelope entry under a parameter set (R120); STOPPING and STOP write nothing (R127,
R128). -/
def envTick (c : Config) (p : EnvParams) (e : EnvSlot) : Except Fault EnvSlot :=
  match e.mode with
  | .attack => attackTick c p e
  | .decay => decayTick c p e
  | .sustain => .ok (sustainTick p e)
  | .release => releaseTick c p e
  | .stopping => .ok e
  | .stop => .ok e

/-- ENVSTEP (R120): any class with any slot (R135). -/
def execEnvStep (slot : BitVec 8) (cls : ParamClass) (s : State) : Result :=
  inEnvRange (.envStep slot cls) slot s <|
    s.finishEnv slot.toNat (envTick s.cfg (s.ep cls) (s.envAt slot.toNat))

end Sys2Proof.Machine
end

