-- ==== Sys2Proof/Machine/Oscillator.lean ====
section
/-! DEFINITION. The oscillator engine (spec/42_oscillator.md): SELWAVE, SETFREQ, SETFMFREQ, SETMODRATIO,
SETPW, OSCSTEP, OSCSTEPFM. -/

namespace Sys2Proof.Machine

/-- SELWAVE (R140): it recomputes no step and changes no phase. -/
def execSelWave (kind : Wave) (s : State) : Result := .next (({ s with wave := kind }).respond 0)

/-- What SETFREQ writes in a slot, under waveform `w` (R141). -/
def setFreqSlot (w : Wave) (pitch : BitVec 16) (ts : Word) (o : OscSlot) : OscSlot :=
  { o with
    carrierStep := carrierStepOf (Config.range w) pitch
    note := pitch
    activationTimestamp := ts }

/-- SETFREQ (R141). -/
def execSetFreq (slot : BitVec 8) (pitch : BitVec 16) (ts : Word) (s : State) : Result :=
  inOscRange (.setFreq slot pitch ts) slot s <|
    .next ((s.setOscAt slot.toNat (setFreqSlot s.wave pitch ts (s.oscAt slot.toNat))).respond 0)

/-- What SETFMFREQ writes in a slot, at the modulator ratio in force (R142, R199). -/
def setFmFreqSlot (c : Config) (ratio : BitVec 16) (pitch : BitVec 16) (ts : Word) (o : OscSlot) : OscSlot :=
  let carrier := carrierStepOf (Config.range .sine) pitch
  { o with
    carrierStep := carrier
    modulatorStep := modulatorStepOf carrier ratio
    volumeDiff := volumeDiffOf c
    modEnvPhase := 0
    modEnvStep := modEnvStepOf c
    note := pitch
    activationTimestamp := ts }

/-- SETFMFREQ (R142). -/
def execSetFmFreq (slot : BitVec 8) (pitch : BitVec 16) (ts : Word) (s : State) : Result :=
  inOscRange (.setFmFreq slot pitch ts) slot s <|
    .next ((s.setOscAt slot.toNat (setFmFreqSlot s.cfg s.modRatio pitch ts (s.oscAt slot.toNat))).respond 0)

/-- SETMODRATIO (R143). -/
def execSetModRatio (ratio : BitVec 16) (s : State) : Result := .next (({ s with modRatio := ratio }).respond 0)

/-- SETPW (R144). -/
def execSetPw (width : BitVec 12) (s : State) : Result := .next (({ s with pulseWidth := width }).respond 0)

/-- One tick of an oscillator entry on the simple path (R151): the phase advances before the read, and
the index mask of the source is kept. -/
def oscTick (c : Config) (w : Wave) (pulseWidth : BitVec 12) (o : OscSlot) : Except Fault OscSlot :=
  let phase := advancePhase (Config.range w) o.carrierPhase o.carrierStep
  let i := phaseIndex phase &&& (Config.range w - 1)
  match waveSample c pulseWidth w i with
  | .ok smp => .ok { o with carrierPhase := phase, sample := smp }
  | .error f => .error f

/-- OSCSTEP (R151). -/
def execOscStep (slot : BitVec 8) (s : State) : Result :=
  inOscRange (.oscStep slot) slot s <|
    s.finishOsc slot.toNat (oscTick s.cfg s.wave s.pulseWidth (s.oscAt slot.toNat))

/-- Part 1 of OSCSTEPFM, the modulation-depth envelope (R153). -/
def modEnvTick (c : Config) (o : OscSlot) : Except Fault OscSlot :=
  if o.modEnvPhase.toNat < Config.vtim then
    let t := o.modEnvPhase.toNat + o.modEnvStep.toNat
    if t < Config.vtim then
      match decRead c (t >>> Config.precisionBits) with
      | .ok d => .ok { o with modEnvPhase := truncU 32 t, currentModVolume := fmDepth c d o.volumeDiff }
      | .error f => .error f
    else .ok { o with modEnvPhase := truncU 32 Config.vtim, currentModVolume := fmEndDepthOf c }
  else .ok o

/-- Part 2 of OSCSTEPFM, the phase advance (R154). -/
def fmPhases (o : OscSlot) : OscSlot :=
  { o with
    carrierPhase := advancePhase (Config.range .sine) o.carrierPhase o.carrierStep
    modulatorPhase := advancePhase (Config.range .sine) o.modulatorPhase o.modulatorStep }

/-- The index of the output lookup of OSCSTEPFM (R156). -/
def fmIndex (carrierPhase : Word) (off : Nat) : Nat := (phaseIndex carrierPhase + off) % Config.range .sine

/-- Parts 3 and 4 of OSCSTEPFM: the modulator sample, the phase offset and the output lookup (R155, R156). -/
def fmLookup (c : Config) (o : OscSlot) : Except Fault OscSlot :=
  match sineRead c (phaseIndex o.modulatorPhase) with
  | .ok m =>
    match sineRead c (fmIndex o.carrierPhase (fmOffset m o.currentModVolume)) with
    | .ok smp => .ok { o with sample := smp }
    | .error f => .error f
  | .error f => .error f

/-- One tick of an oscillator entry on the phase-modulation path (R152), its four parts in order. -/
def fmTick (c : Config) (o : OscSlot) : Except Fault OscSlot :=
  match modEnvTick c o with
  | .ok o1 => fmLookup c (fmPhases o1)
  | .error f => .error f

/-- OSCSTEPFM (R152); it ignores `WAVE`. -/
def execOscStepFm (slot : BitVec 8) (s : State) : Result :=
  inOscRange (.oscStepFm slot) slot s <|
    s.finishOsc slot.toNat (fmTick s.cfg (s.oscAt slot.toNat))

end Sys2Proof.Machine
end

