-- ==== Sys2Proof/Machine/Dispatch.lean ====
section
/-! DEFINITION. The meaning of each command: one arm per constructor of Instr. -/

namespace Sys2Proof.Machine

/-- The meaning of a decoded command (spec/30_encoding.md R83, R88). -/
def exec (i : Instr) (s : State) : Host.Outcome State Fault Refusal :=
  match i with
  | .init dbg => Sys2Proof.Machine.execInit dbg s
  | .gateOn slot => Sys2Proof.Machine.execGateOn slot s
  | .gateOff slot => Sys2Proof.Machine.execGateOff slot s
  | .setAtk cls raw => Sys2Proof.Machine.execSetAtk cls raw s
  | .setDec cls raw => Sys2Proof.Machine.execSetDec cls raw s
  | .setRel cls raw => Sys2Proof.Machine.execSetRel cls raw s
  | .setSus cls level => Sys2Proof.Machine.execSetSus cls level s
  | .selWave kind => Sys2Proof.Machine.execSelWave kind s
  | .setFreq slot pitch ts => Sys2Proof.Machine.execSetFreq slot pitch ts s
  | .setFmFreq slot pitch ts => Sys2Proof.Machine.execSetFmFreq slot pitch ts s
  | .setModRatio ratio => Sys2Proof.Machine.execSetModRatio ratio s
  | .setPw width => Sys2Proof.Machine.execSetPw width s
  | .envStep slot cls => Sys2Proof.Machine.execEnvStep slot cls s
  | .oscStep slot => Sys2Proof.Machine.execOscStep slot s
  | .oscStepFm slot => Sys2Proof.Machine.execOscStepFm slot s

end Sys2Proof.Machine
end

