-- ==== Sys2Proof/Machine/Transaction.lean ====
section
/-! DEFINITION. One command transaction (spec/30_encoding.md R80, R88), and what the block does with each
thing the host presents (spec/70_reset_and_hazards.md R209). -/

namespace Sys2Proof.Machine

/-- Classify a command word and execute it, or record its fault (R88). Whatever `STATUS` holds, the
command is decoded and executed by its own rules (R175). -/
def transact (c : Command) (s : State) : Result :=
  match decode c with
  | .ok i => exec i s
  | .error e => .next (s.recordFault (decodeErrorKind e) c.cmd)

/-- Accept one thing the host presents: a command transaction, or a pulse on the reset input (R190). -/
def acceptInput (x : HostInput) (s : State) : Result :=
  match x with
  | .command c => transact c s
  | .reset => .next s.hardwareReset

/-- Present inputs after those already waiting: they are accepted in the order they are presented (R69). -/
def State.present (s : State) (xs : List HostInput) : State := { s with inbox := s.inbox ++ xs }

/-- Present one command before anything that waits. -/
def State.presentFirst (s : State) (c : Command) : State := { s with inbox := .command c :: s.inbox }

end Sys2Proof.Machine
end

