-- ==== Sys2Proof/Machine/Step.lean ====
section
/-! DEFINITION. One step of the block: accept the oldest thing the host has presented, or wait. -/

namespace Sys2Proof.Machine

/-- One step. The block fetches no instruction (R32); it accepts the next input in the order of acceptance
(R69), and with nothing presented it is idle and holds its state (R187, R191; log 3). -/
def step (s : State) : Host.Outcome State Fault Refusal :=
  match s.inbox with
  | [] => .next s
  | x :: rest => acceptInput x { s with inbox := rest }

/-- The state in which the transaction of the bits `w` is the next thing the block accepts (log 3). -/
def State.withFetchWord (s : State) (nbits w : Nat) : State := s.presentFirst (commandOfBits nbits w)

end Sys2Proof.Machine
end

