-- ==== Sys2Proof/Machine/Assembler.lean ====
section
/-! DEFINITION. The assembler (spec/30_encoding.md R95 to R97): a program text to the flat sequence of
transactions it stands for. It checks that each operand fits its field and nothing else; the block
checks the slot ranges (R95). What R95 and R97 leave open of the text's form is log 11. -/

namespace Sys2Proof.Machine

/-- Why the assembler refuses a text. -/
inductive AsmError where
  /-- the first word of a line is no mnemonic, pseudo-instruction or directive -/
  | unknownMnemonic
  /-- the operands are not those of the line's syntax -/
  | badOperands
  /-- an operand is no number, symbol or keyword of its place -/
  | badOperand
  /-- an operand does not fit its field (R95: never truncated) -/
  | tooLarge
  /-- an `.endr` with no open `.rept` -/
  | strayEndr
  /-- a `.rept` that is not closed -/
  | openRept
deriving DecidableEq, Repr

/-- The mnemonics of R95, the pseudo-instructions of R96 and the directives of R97. -/
inductive Keyword where
  | init | gateon | gateoff | setatk | setdec | setrel | setsus | selwave | setfreq | setfmfreq
  | setmodratio | setpw | envstep | oscstep | oscstepfm
  | filtstep | filtoff | tick | tickfm | setadsr
  | rept | endr | equ | word
deriving DecidableEq, Repr

/-- The spelling of each keyword, in lower case (R95 to R97). -/
def keywordTable : List (String × Keyword) :=
  [("init", .init), ("gateon", .gateon), ("gateoff", .gateoff), ("setatk", .setatk), ("setdec", .setdec),
   ("setrel", .setrel), ("setsus", .setsus), ("selwave", .selwave), ("setfreq", .setfreq),
   ("setfmfreq", .setfmfreq), ("setmodratio", .setmodratio), ("setpw", .setpw), ("envstep", .envstep),
   ("oscstep", .oscstep), ("oscstepfm", .oscstepfm)] ++
  [("filtstep", .filtstep), ("filtoff", .filtoff), ("tick", .tick), ("tickfm", .tickfm), ("setadsr", .setadsr)] ++
  [(".rept", .rept), (".endr", .endr), (".equ", .equ), (".word", .word)]

/-- Mnemonics and keywords are case-insensitive (R95). -/
def lowerCase (w : List Char) : List Char := w.map Char.toLower

/-- The keyword a word spells. -/
def keywordOf (w : List Char) : Option Keyword :=
  (keywordTable.find? fun p => p.1.toList == lowerCase w).map Prod.snd

/-- The pieces of a text between the characters that satisfy `p`. -/
def piecesAt (p : Char → Bool) : List Char → List (List Char)
  | [] => [[]]
  | c :: cs =>
    match piecesAt p cs with
    | [] => [[c]]
    | w :: ws => if p c then [] :: w :: ws else (c :: w) :: ws

/-- A piece of text without the white space at its two ends. -/
def trimmed (w : List Char) : List Char :=
  ((w.dropWhile Char.isWhitespace).reverse.dropWhile Char.isWhitespace).reverse

/-- The value of a digit in base `base`, in either case. -/
def digitValue (base : Nat) (c : Char) : Option Nat :=
  let v := if c.isDigit then some (c.toNat - '0'.toNat)
    else if 'a'.toNat ≤ c.toLower.toNat ∧ c.toLower.toNat ≤ 'f'.toNat then some (c.toLower.toNat - 'a'.toNat + 10)
    else none
  v.bind fun d => if d < base then some d else none

/-- The number that digits spell, after the number `acc` already read. -/
def digitsValue (base : Nat) (acc : Nat) : List Char → Option Nat
  | [] => some acc
  | c :: cs => (digitValue base c).bind fun d => digitsValue base (acc * base + d) cs

/-- A number in decimal or `0x` hexadecimal (R95). -/
def numberOf (w : List Char) : Option Nat :=
  match w with
  | [] => none
  | '0' :: 'x' :: c :: cs => digitsValue 16 0 (c :: cs)
  | c :: cs => digitsValue 10 0 (c :: cs)

/-- The symbols defined so far (R97), the latest first. -/
abbrev Symbols := List (List Char × Nat)

/-- An operand that is a number or a defined symbol. -/
def valueOf (syms : Symbols) (w : List Char) : Except AsmError Nat :=
  match numberOf w with
  | some n => .ok n
  | none =>
    match syms.find? fun p => p.1 == w with
    | some p => .ok p.2
    | none => .error .badOperand

/-- An operand of a field of `n` bits; one that does not fit is refused, never truncated (R95). -/
def fieldOf (n : Nat) (syms : Symbols) (w : List Char) : Except AsmError (BitVec n) :=
  match valueOf syms w with
  | .ok v => if v < 2 ^ n then .ok (BitVec.ofNat n v) else .error .tooLarge
  | .error e => .error e

/-- A `class` operand, `voice` or `filter` (R95). -/
def classOf (w : List Char) : Except AsmError ParamClass :=
  if lowerCase w = "voice".toList then .ok .voice
  else if lowerCase w = "filter".toList then .ok .filter
  else .error .badOperand

/-- A `kind` operand, a waveform's name or 0 .. 3 (R95). -/
def kindOf (syms : Symbols) (w : List Char) : Except AsmError Wave :=
  if lowerCase w = "saw".toList then .ok .saw
  else if lowerCase w = "sine".toList then .ok .sine
  else if lowerCase w = "tri".toList then .ok .triangle
  else if lowerCase w = "square".toList then .ok .square
  else (fieldOf 2 syms w).map Wave.ofCode

/-- A command or pseudo-instruction line, as the commands it expands to (R95, R96). -/
def instrsOf (maxVoice : Nat) (syms : Symbols) (k : Keyword) (ops : List (List Char)) : Except AsmError (List Instr) :=
  match k, ops with
  | .init, [] => .ok [.init false]
  | .init, [d] => do let b ← fieldOf 1 syms d; return [.init (b == 1#1)]
  | .gateon, [s] => do let s ← fieldOf 8 syms s; return [.gateOn s]
  | .gateoff, [s] => do let s ← fieldOf 8 syms s; return [.gateOff s]
  | .setatk, [c, r] => do let c ← classOf c; let r ← fieldOf 12 syms r; return [.setAtk c r]
  | .setdec, [c, r] => do let c ← classOf c; let r ← fieldOf 12 syms r; return [.setDec c r]
  | .setrel, [c, r] => do let c ← classOf c; let r ← fieldOf 12 syms r; return [.setRel c r]
  | .setsus, [c, l] => do let c ← classOf c; let l ← fieldOf 12 syms l; return [.setSus c l]
  | .selwave, [w] => do let w ← kindOf syms w; return [.selWave w]
  | .setfreq, [s, p, t] => do
    let s ← fieldOf 8 syms s; let p ← fieldOf 16 syms p; let t ← fieldOf 32 syms t; return [.setFreq s p t]
  | .setfmfreq, [s, p, t] => do
    let s ← fieldOf 8 syms s; let p ← fieldOf 16 syms p; let t ← fieldOf 32 syms t; return [.setFmFreq s p t]
  | .setmodratio, [r] => do let r ← fieldOf 16 syms r; return [.setModRatio r]
  | .setpw, [w] => do let w ← fieldOf 12 syms w; return [.setPw w]
  | .envstep, [s, c] => do let s ← fieldOf 8 syms s; let c ← classOf c; return [.envStep s c]
  | .oscstep, [s] => do let s ← fieldOf 8 syms s; return [.oscStep s]
  | .oscstepfm, [s] => do let s ← fieldOf 8 syms s; return [.oscStepFm s]
  | .filtstep, [] => .ok [.envStep (BitVec.ofNat 8 maxVoice) .filter]
  | .filtoff, [] => .ok [.gateOff (BitVec.ofNat 8 maxVoice)]
  | .tick, [s, c] => do let s ← fieldOf 8 syms s; let c ← classOf c; return [.envStep s c, .oscStep s]
  | .tickfm, [s, c] => do let s ← fieldOf 8 syms s; let c ← classOf c; return [.envStep s c, .oscStepFm s]
  | .setadsr, [c, a, d, s, r] => do
    let c ← classOf c; let a ← fieldOf 12 syms a; let d ← fieldOf 12 syms d
    let s ← fieldOf 12 syms s; let r ← fieldOf 12 syms r
    return [.setAtk c a, .setDec c d, .setSus c s, .setRel c r]
  | _, _ => .error .badOperands

/-- The assembler between two lines: the symbols, the `.rept` blocks still open (each with its count and
what stood before it, innermost first), and the transactions of the innermost open block. -/
structure AsmState where
  syms : Symbols
  stack : List (Nat × List Command)
  out : List Command
deriving DecidableEq, Repr

/-- The transactions of further commands, after those assembled so far (R97: the program is flat). -/
def AsmState.emit (a : AsmState) (is : List Instr) : AsmState := { a with out := a.out ++ is.map encode }

/-- One keyword with its operands: a directive of R97, or a line of R95 and R96. The lines inside a `.rept`
block are assembled once, whatever its count, and the transactions they give are repeated at the `.endr`;
so a line inside a `.rept 0` block must still be valid, and an error in it refuses the whole text (DESIGN
CHOICE, log 11: R97 does not say). The name of an `.equ` is any operand text, an empty one or one with blanks
inside included (DESIGN CHOICE, log 11: R97 gives a name no form). -/
def assembleWord (maxVoice : Nat) (a : AsmState) (k : Keyword) (ops : List (List Char)) : Except AsmError AsmState :=
  match k, ops with
  | .rept, [n] => do let n ← valueOf a.syms n; return { a with stack := (n, a.out) :: a.stack, out := [] }
  | .endr, [] =>
    match a.stack with
    | [] => .error .strayEndr
    | (n, before) :: rest => .ok { a with stack := rest, out := before ++ (List.replicate n a.out).flatten }
  | .equ, [name, v] => do let v ← valueOf a.syms v; return { a with syms := (name, v) :: a.syms }
  | .word, [c] => do let c ← fieldOf 32 a.syms c; return { a with out := a.out ++ [⟨c, 0⟩] }
  | .word, [c, g] => do
    let c ← fieldOf 32 a.syms c; let g ← fieldOf 32 a.syms g; return { a with out := a.out ++ [⟨c, g⟩] }
  | _, _ => do let is ← instrsOf maxVoice a.syms k ops; return a.emit is

/-- One line: a comment starts at `;`, the operands stand after the first word, separated by commas (R95). -/
def assembleLine (maxVoice : Nat) (a : AsmState) (line : List Char) : Except AsmError AsmState :=
  let code := trimmed (line.takeWhile fun c => c != ';')
  let first := code.takeWhile fun c => !c.isWhitespace
  let rest := trimmed (code.dropWhile fun c => !c.isWhitespace)
  if code.isEmpty then .ok a
  else
    match keywordOf first with
    | none => .error .unknownMnemonic
    | some k => assembleWord maxVoice a k (if rest.isEmpty then [] else (piecesAt (fun c => c == ',') rest).map trimmed)

/-- Assemble a program text for a block of `MAXVOICE` voices; `FILTER_SLOT` stands for `MAXVOICE` (R95). -/
def assemble (maxVoice : Nat) (text : String) : Except AsmError (List Command) :=
  match (piecesAt (fun c => c == '\n') text.toList).foldlM (assembleLine maxVoice)
      ⟨[("FILTER_SLOT".toList, maxVoice)], [], []⟩ with
  | .ok a => if a.stack.isEmpty then .ok a.out else .error .openRept
  | .error e => .error e

end Sys2Proof.Machine
end

