-- ==== Sys2Proof/Safety.lean ====
section
/-! DEFINITION. The terms claims are stated in: a run without a recorded fault, the invariants the spec
gives for the state (spec/10_state.md R36 to R40, R45, R46), the arcs of the mode machine
(spec/41_envelope_step.md R129), and repeated commands. -/

namespace Sys2Proof.Machine

/-- No fault is recorded (R175): the premise a claim about a host that keeps its duties may take. -/
abbrev State.faultFree (s : State) : Prop := s.readStatus = 0

/-- The slot files have the sizes R36 and R39 give them. -/
abbrev State.filesSized (s : State) : Prop := s.env.length = s.cfg.maxVoice + 1 ∧ s.osc.length = s.cfg.maxVoice

/-- The modes in which a phase sweeps the table (R38). -/
def Mode.sweeps : Mode → Bool
  | .attack => true
  | .decay => true
  | .release => true
  | .stop => false
  | .sustain => false
  | .stopping => false

/-- The modes in which the output is 0 (R38). -/
def Mode.silent : Mode → Bool
  | .stop => true
  | .stopping => true
  | .attack => false
  | .decay => false
  | .sustain => false
  | .release => false

/-- The envelope invariants of R38, with the bound on `releaseStartLevel` that (d) rests on. -/
abbrev EnvSlot.sound (e : EnvSlot) : Prop :=
  e.phase.toNat < Config.vtim ∧ (e.mode.sweeps = false → e.phase = 0) ∧ (e.mode.silent = true → e.output = 0) ∧
    e.output.toNat ≤ Config.envRange ∧ e.releaseStartLevel.toNat ≤ Config.envRange

/-- The oscillator invariants of R40; every waveform has the range of the sine table (R16). -/
abbrev OscSlot.sound (o : OscSlot) : Prop :=
  o.carrierPhase.toNat < Config.range .sine * 2 ^ Config.precisionBits ∧
    o.modulatorPhase.toNat < Config.range .sine * 2 ^ Config.precisionBits ∧ o.modEnvPhase.toNat ≤ Config.vtim

/-- The fault registers: the hardwired bits hold 0, and `FAULT_CMD` is 0 while `STATUS` is (R45, R46). -/
abbrev State.faultRegsSound (s : State) : Prop :=
  s.status = s.readStatus ∧ (s.readStatus = 0 → s.faultCmd = 0)

/-- The invariant of the block. -/
abbrev State.sound (s : State) : Prop :=
  s.filesSized ∧ (∀ e ∈ s.env, e.sound) ∧ (∀ o ∈ s.osc, o.sound) ∧ s.faultRegsSound

/-- Every piece of architectural state holds its value after hardware reset (R52, R190). -/
def State.atResetValues (s : State) : Prop :=
  s.filesSized ∧ (∀ j, j ≤ s.cfg.maxVoice → s.env[j]? = some ⟨0, .stop, 0, 0⟩) ∧
    (∀ j, j < s.cfg.maxVoice → s.osc[j]? = some ⟨0, 0, 0, 0, 0, 0, 0, 0, 0, 0, 0⟩) ∧
    s.epVoice = ⟨0, 0, 0, 0⟩ ∧ s.epFilter = ⟨0, 0, 0, 0⟩ ∧ s.wave = .saw ∧ s.modRatio = 0 ∧ s.pulseWidth = 0 ∧
    s.readStatus = 0 ∧ s.status = 0 ∧ s.faultCmd = 0

/-- The arcs of R129 that executing `i` in state `s` can take on envelope slot `j`, from mode `a` to a
different mode `b`, with the conditions of the column "taken by". -/
def execArc (s : State) (i : Instr) (j : Nat) (a b : Mode) : Prop :=
  match i with
  | .init _ => b = .stop
  | .gateOn slot => b = .attack ∧ (j = slot.toNat ∨ j = s.cfg.filterSlot)
  | .gateOff slot => b = .release ∧ j = slot.toNat
  | .envStep slot cls =>
    let e := s.envAt j
    let p := s.ep cls
    j = slot.toNat ∧
      ((a = .attack ∧ b = .decay ∧ Config.vtim ≤ e.phase.toNat + p.attackStep.toNat) ∨
        (a = .decay ∧ b = .sustain ∧
          (Config.vtim ≤ e.phase.toNat + p.decayStep.toNat ∨
            ∃ d, decRead s.cfg ((e.phase.toNat + p.decayStep.toNat) / 1024) = .ok d ∧ d ≤ p.sustainLevel.toNat)) ∨
        (a = .release ∧ b = .stopping ∧
          (Config.vtim ≤ e.phase.toNat + p.releaseStep.toNat ∨
            ∃ d, decRead s.cfg ((e.phase.toNat + p.releaseStep.toNat) / 1024) = .ok d ∧
              d * e.releaseStartLevel.toNat / Config.envRange ≤ 1)))
  | .setAtk _ _ => False
  | .setDec _ _ => False
  | .setRel _ _ => False
  | .setSus _ _ => False
  | .selWave _ => False
  | .setFreq _ _ _ => False
  | .setFmFreq _ _ _ => False
  | .setModRatio _ => False
  | .setPw _ => False
  | .oscStep _ => False
  | .oscStepFm _ => False

/-- Is a slot inside the slot range of opcode `op`, as the column "slot range" of R83 gives it? -/
def slotRangeOk (maxVoice : Nat) (op : BitVec 4) (slot : BitVec 8) : Bool :=
  if op = 0x2 ∨ op = 0x3 ∨ op = 0xD then decide (slot.toNat ≤ maxVoice)
  else if op = 0x9 ∨ op = 0xA ∨ op = 0xE ∨ op = 0xF then decide (slot.toNat < maxVoice)
  else true

/-- The fault of a command word, by the three tests of R88 in their order, from the word's bits alone. -/
def faultClass (maxVoice : Nat) (cmd : Word) : Option FaultKind :=
  match rowOf (opField cmd) with
  | none => some .opcode
  | some r =>
    if cmd &&& r.mask = r.matchBits then
      if slotRangeOk maxVoice (opField cmd) (slotField cmd) then none else some .slot
    else some .rsvd

/-- From `s` to `t` nothing is written but the envelope entries in `touched` and the response port. -/
def onlyEnvWritten (touched : Nat → Prop) (s t : State) : Prop :=
  t.cfg = s.cfg ∧ t.epVoice = s.epVoice ∧ t.epFilter = s.epFilter ∧ t.osc = s.osc ∧ t.wave = s.wave ∧
    t.modRatio = s.modRatio ∧ t.pulseWidth = s.pulseWidth ∧ t.status = s.status ∧ t.faultCmd = s.faultCmd ∧
    t.inbox = s.inbox ∧ t.env.length = s.env.length ∧ ∀ j, ¬ touched j → t.env[j]? = s.env[j]?

/-- From `s` to `t` nothing is written but the oscillator entry `slot` and the response port. -/
def onlyOscWritten (slot : Nat) (s t : State) : Prop :=
  t.cfg = s.cfg ∧ t.epVoice = s.epVoice ∧ t.epFilter = s.epFilter ∧ t.env = s.env ∧ t.wave = s.wave ∧
    t.modRatio = s.modRatio ∧ t.pulseWidth = s.pulseWidth ∧ t.status = s.status ∧ t.faultCmd = s.faultCmd ∧
    t.inbox = s.inbox ∧ t.osc.length = s.osc.length ∧ ∀ j, j ≠ slot → t.osc[j]? = s.osc[j]?

/-- From `s` to `t` nothing is written but the parameter set `c` and the response port. -/
def onlyParamsWritten (c : ParamClass) (s t : State) : Prop :=
  t.cfg = s.cfg ∧ t.env = s.env ∧ t.osc = s.osc ∧ t.wave = s.wave ∧ t.modRatio = s.modRatio ∧
    t.pulseWidth = s.pulseWidth ∧ t.status = s.status ∧ t.faultCmd = s.faultCmd ∧ t.inbox = s.inbox ∧
    ∀ d, d ≠ c → t.ep d = s.ep d

/-- From `s` to `t` nothing is written but the global oscillator settings and the response port. -/
def onlySettingsWritten (s t : State) : Prop :=
  t.cfg = s.cfg ∧ t.epVoice = s.epVoice ∧ t.epFilter = s.epFilter ∧ t.env = s.env ∧ t.osc = s.osc ∧
    t.status = s.status ∧ t.faultCmd = s.faultCmd ∧ t.inbox = s.inbox

/-- The same command executed `n` times, stopping at a fault or a refusal. -/
def execTimes (i : Instr) : Nat → State → Result
  | 0, s => .next s
  | n + 1, s =>
    match exec i s with
    | .next s' => execTimes i n s'
    | .fault f => .fault f
    | .refused r => .refused r

/-- A run of R209: the commands in order, from the state given; its result is the final state with the
list of responses. -/
def runCommands : List Command → State → Result
  | [], s => .next s
  | c :: cs, s =>
    match transact c s with
    | .next s' => runCommands cs s'
    | .fault f => .fault f
    | .refused r => .refused r

/-- A table that never falls as its index rises; R132 promises a non-increasing release for such an
`ENV_TABLE`, and I6 asks that a claim state it as a premise. -/
def envTableRises (c : Config) : Prop :=
  ∀ (i j : Nat) (hi : i < 4096) (hj : j < 4096), i ≤ j → (c.envTable[i]'hi).val ≤ (c.envTable[j]'hj).val

end Sys2Proof.Machine
end

