-- ==== Sys2Proof/Certificates/Slice0/Obligations.lean ====
section
/-! DEFINITION. The statements for the provers. Each docstring names the rule of spec/ it formalises. -/

open Sys2Proof Sys2Proof.Machine

/-! The encoding (spec/30_encoding.md). -/

/-- Decoding the transaction of a command gives the command back, at every value of its operands (R81 to
R83). -/
def Obligations.DecodeOfEncode : Prop :=
  ∀ i : Instr, decode (encode i) = .ok i

/-- A transaction that decodes is the encoding of what it decodes to, but for an `ARG` the command does not
read (R82, R86, R89): no bit of a command word is dropped or ignored. -/
def Obligations.EncodeOfDecode : Prop :=
  ∀ (c : Command) (i : Instr), decode c = .ok i → encode i = ⟨c.cmd, if i.readsArg then c.arg else 0⟩

/-- Every command word is one command or a fault (R90): it is the reserved opcode, or the word of exactly
one command (with the timestamp of its `ARG` where it reads one), or a word that no command encodes to. -/
def Obligations.EveryWordIsOneCommandOrAFault : Prop :=
  ∀ c : Command,
    (opField c.cmd = 0 ∧ decode c = .error .reservedOpcode) ∨
    (opField c.cmd ≠ 0 ∧ (∃ m, decode c = .error (.reservedBits m)) ∧ ∀ i, (encode i).cmd ≠ c.cmd) ∨
    (∃ i, decode c = .ok i ∧ (encode i).cmd = c.cmd ∧
      ∀ j, encode j = ⟨c.cmd, if j.readsArg then c.arg else 0⟩ → j = i)

/-- The rows of the opcode map do not overlap: a word belongs to one row at most (R90). -/
def Obligations.OpcodeRowsAreDisjoint : Prop :=
  ∀ (w : Word) (r q : OpcodeRow), r ∈ opcodeRows → q ∈ opcodeRows →
    w &&& r.mask = r.matchBits → w &&& q.mask = q.matchBits → r.mnemonic = q.mnemonic

/-- The encoding examples of R98 decode to the commands they stand for, and its fault examples of the first
two tests to those faults. -/
def Obligations.EncodingExamplesDecode : Prop :=
  decode ⟨0x10000000, 0⟩ = .ok (.init false) ∧
  decode ⟨0x10000001, 0⟩ = .ok (.init true) ∧
  decode ⟨0x20300000, 0⟩ = .ok (.gateOn 3) ∧
  decode ⟨0x30400000, 0⟩ = .ok (.gateOff 4) ∧
  decode ⟨0x40000FFF, 0⟩ = .ok (.setAtk .voice 4095) ∧
  decode ⟨0x40080005, 0⟩ = .ok (.setAtk .filter 5) ∧
  decode ⟨0x70000800, 0⟩ = .ok (.setSus .voice 2048) ∧
  decode ⟨0x80000003, 0⟩ = .ok (.selWave .square) ∧
  decode ⟨0x900001B8, 0x3E8⟩ = .ok (.setFreq 0 440 1000) ∧
  decode ⟨0xA01001B8, 7⟩ = .ok (.setFmFreq 1 440 7) ∧
  decode ⟨0xB0000200, 0⟩ = .ok (.setModRatio 512) ∧
  decode ⟨0xC0000400, 0⟩ = .ok (.setPw 1024) ∧
  decode ⟨0xD0480000, 0⟩ = .ok (.envStep 4 .filter) ∧
  decode ⟨0xE0200000, 0⟩ = .ok (.oscStep 2) ∧
  decode ⟨0xF0100000, 0⟩ = .ok (.oscStepFm 1) ∧
  decode ⟨0x00000000, 0⟩ = .error .reservedOpcode ∧
  decode ⟨0x20380000, 0⟩ = .error (.reservedBits "GATEON") ∧
  decode ⟨0x40001000, 0⟩ = .error (.reservedBits "SETATK")

/-- `ARG` is read only by SETFREQ and SETFMFREQ: every other word acts the same whatever its `ARG`; a word that
faults faults the same whatever its `ARG`, and a word that does not fault does so for no `ARG` (R89). -/
def Obligations.ArgReadOnlyByFrequencyCommands : Prop :=
  (∀ (cmd a b : Word) (s : State), opField cmd ≠ 0x9 → opField cmd ≠ 0xA →
    transact ⟨cmd, a⟩ s = transact ⟨cmd, b⟩ s) ∧
  (∀ (cmd a b : Word) (s : State) (k : FaultKind), faultClass s.cfg.maxVoice cmd = some k →
    transact ⟨cmd, a⟩ s = transact ⟨cmd, b⟩ s) ∧
  (∀ (cmd a : Word) (s : State), faultClass s.cfg.maxVoice cmd = none →
    ∃ t, transact ⟨cmd, a⟩ s = .next t ∧ t.status = s.status ∧ t.faultCmd = s.faultCmd)

/-! The step of the block and the recording of faults (spec/60_exceptions.md, spec/70_reset_and_hazards.md). -/

/-- A step runs the decoded command: when the transaction at the head of the host's queue decodes to `i`, the
step is `exec i` on the state with the transaction taken from the queue (the queue is the model's, log 3). -/
def Obligations.StepRunsTheDecodedCommand : Prop :=
  ∀ (s : State) (c : Command) (rest : List HostInput) (i : Instr),
    s.inbox = .command c :: rest → decode c = .ok i → step s = exec i { s with inbox := rest }

/-- With nothing presented the block is idle and holds its state (R187, R191; the queue is the model's, log 3). -/
def Obligations.StepIdlesWithNothingPresented : Prop :=
  ∀ s : State, s.inbox = [] → step s = .next s

/-- Hardware reset, at power-up and by a pulse on the reset input from any state, sets every piece of
architectural state to its value of R52 (R190); the configuration stays as it is (R209). -/
def Obligations.ResetSetsEveryRegister : Prop :=
  State.reset.atResetValues ∧
  ∀ (s : State) (rest : List HostInput), s.inbox = .reset :: rest →
    ∃ t, step s = .next t ∧ t.atResetValues ∧ t.cfg = s.cfg

/-- A pulse on the reset input takes nothing from the host's queue but itself, and leaves the responses already
returned: the model's choice (log 5). -/
def Obligations.ResetInputKeepsTheHostsRecord : Prop :=
  ∀ (s : State) (rest : List HostInput), s.inbox = .reset :: rest →
    ∃ t, step s = .next t ∧ t.inbox = rest ∧ t.responses = s.responses

/-- A word the tests of R88 reject records its fault by R172 and does nothing else: the kind is the first test
that fails (R173), `FAULT_CMD` keeps the first faulting word, `RESP` is 0, no other state changes. -/
def Obligations.RejectedWordRecordsItsFault : Prop :=
  ∀ (s : State) (c : Command) (k : FaultKind), faultClass s.cfg.maxVoice c.cmd = some k →
    ∃ t, transact c s = .next t ∧
      t.status = s.readStatus ||| (1#32 <<< k.code) ∧ t.readStatus = s.readStatus ||| (1#32 <<< k.code) ∧
      t.faultCmd = (if s.readStatus = 0 then c.cmd else s.faultCmd) ∧ t.responses = 0 :: s.responses ∧
      t.cfg = s.cfg ∧ t.epVoice = s.epVoice ∧ t.epFilter = s.epFilter ∧ t.env = s.env ∧ t.osc = s.osc ∧
      t.wave = s.wave ∧ t.modRatio = s.modRatio ∧ t.pulseWidth = s.pulseWidth ∧ t.inbox = s.inbox

/-- A word the tests of R88 accept is a command whose slot is in range; it runs to a next state, whatever its
operands and the state, and records nothing (R170). -/
def Obligations.AcceptedWordExecutesWithoutFault : Prop :=
  ∀ (s : State) (c : Command), faultClass s.cfg.maxVoice c.cmd = none →
    ∃ i t, decode c = .ok i ∧ i.wellFormed s.cfg.maxVoice = true ∧ transact c s = exec i s ∧
      exec i s = .next t ∧ t.status = s.status ∧ t.faultCmd = s.faultCmd

/-- A slot outside its range raises `ERR_SLOT` for each of the seven commands that have a slot range, and has
no other effect than the record of R172 (R87, R202). The word `FAULT_CMD` takes is deduced from the decoded
command, as its encoding (DEDUCED, log 6). -/
def Obligations.SlotOutOfRangeRecordsErrSlot : Prop :=
  ∀ (s : State) (i : Instr), i.wellFormed s.cfg.maxVoice = false →
    ∃ t, exec i s = .next t ∧ t.readStatus = s.readStatus ||| 4#32 ∧
      t.faultCmd = (if s.readStatus = 0 then (encode i).cmd else s.faultCmd) ∧
      t = { s with status := t.status, faultCmd := t.faultCmd, responses := 0 :: s.responses }

/-- Every command reaches a next state from every state: no table read is out of range (R62), and no command
is refused (R188). -/
def Obligations.EveryCommandReachesANextState : Prop :=
  ∀ (i : Instr) (s : State), ∃ t, exec i s = .next t

/-- Every step reaches a next state, whatever the host presents (R188, R90). -/
def Obligations.EveryStepReachesANextState : Prop :=
  ∀ s : State, ∃ t, step s = .next t

/-- `STATUS` bits are sticky and `FAULT_CMD` keeps the first faulting word: only a hardware reset clears them
(R45, R46, R178). -/
def Obligations.FaultRecordIsSticky : Prop :=
  ∀ (c : Command) (s t : State), transact c s = .next t →
    t.readStatus &&& s.readStatus = s.readStatus ∧ (s.readStatus ≠ 0 → t.faultCmd = s.faultCmd)

/-- Each command returns one response word, which is 0 for every command but the three step commands and for
every command that faults (R80, R84). -/
def Obligations.OneResponsePerCommand : Prop :=
  ∀ (c : Command) (s t : State), transact c s = .next t →
    ∃ r, t.responses = r :: s.responses ∧ t.inbox = s.inbox ∧
      (r ≠ 0 → faultClass s.cfg.maxVoice c.cmd = none ∧
        (opField c.cmd = 0xD ∨ opField c.cmd = 0xE ∨ opField c.cmd = 0xF))

/-- Commands are accepted in the order they are presented: running the block on a queue of commands is
executing the transactions one after the other (R69; the queue is the model's, log 3). -/
def Obligations.CommandsAreAcceptedInOrder : Prop :=
  ∀ (cs : List Command) (s : State), s.inbox = [] →
    Host.Core.run Sys2Proof.core cs.length (s.present (cs.map .command)) = runCommands cs s

/-! The control commands of the envelope engine (spec/40_envelope_control.md). -/

/-- INIT zeroes every envelope entry and both parameter sets and leaves all other state (R101, R53). -/
def Obligations.InitZeroesTheEnvelopeEngine : Prop :=
  ∀ (s : State) (dbg : Bool), s.filesSized →
    ∃ t, exec (.init dbg) s = .next t ∧ t.filesSized ∧
      (∀ j, j ≤ s.cfg.maxVoice → t.env[j]? = some ⟨0, .stop, 0, 0⟩) ∧
      t.epVoice = ⟨0, 0, 0, 0⟩ ∧ t.epFilter = ⟨0, 0, 0, 0⟩ ∧ t.responses = 0 :: s.responses ∧
      t.cfg = s.cfg ∧ t.osc = s.osc ∧ t.wave = s.wave ∧ t.modRatio = s.modRatio ∧ t.pulseWidth = s.pulseWidth ∧
      t.status = s.status ∧ t.faultCmd = s.faultCmd ∧ t.inbox = s.inbox

/-- GATEON puts the slot and the filter slot into ATTACK at phase 0, keeps their output and release level, and
writes nothing else (R102). -/
def Obligations.GateOnAttacksSlotAndFilter : Prop :=
  ∀ (s : State) (slot : BitVec 8) (e f : EnvSlot), slot.toNat ≤ s.cfg.maxVoice →
    s.env[slot.toNat]? = some e → s.env[s.cfg.maxVoice]? = some f →
    ∃ t, exec (.gateOn slot) s = .next t ∧
      t.env[slot.toNat]? = some { e with phase := 0, mode := .attack } ∧
      t.env[s.cfg.maxVoice]? = some { f with phase := 0, mode := .attack } ∧
      t.responses = 0 :: s.responses ∧
      onlyEnvWritten (fun j => j = slot.toNat ∨ j = s.cfg.maxVoice) s t

/-- GATEOFF captures the output, restarts the phase and puts the slot into RELEASE, in every mode, and writes
nothing else: it does not touch the filter envelope of another slot (R103, R134). -/
def Obligations.GateOffReleasesFromTheCurrentOutput : Prop :=
  ∀ (s : State) (slot : BitVec 8) (e : EnvSlot), slot.toNat ≤ s.cfg.maxVoice → s.env[slot.toNat]? = some e →
    ∃ t, exec (.gateOff slot) s = .next t ∧
      t.env[slot.toNat]? = some ⟨0, .release, e.output, e.output⟩ ∧
      t.responses = 0 :: s.responses ∧ onlyEnvWritten (fun j => j = slot.toNat) s t

/-- SETATK stores the attack step of R100 for the clamped rate, without truncation and at least 1 (R104, R35). -/
def Obligations.SetAtkStoresTheAttackStep : Prop :=
  ∀ (s : State) (cls : ParamClass) (raw : BitVec 12),
    ∃ t, exec (.setAtk cls raw) s = .next t ∧
      (t.ep cls).attackStep.toNat = (16777216 / max raw.toNat 5 * 1024) / 50000 ∧
      1 ≤ (t.ep cls).attackStep.toNat ∧ t.ep cls = { s.ep cls with attackStep := (t.ep cls).attackStep } ∧
      t.responses = 0 :: s.responses ∧ onlyParamsWritten cls s t

/-- SETDEC stores the decay step of R100 for the clamped rate (R105, R35). -/
def Obligations.SetDecStoresTheDecayStep : Prop :=
  ∀ (s : State) (cls : ParamClass) (raw : BitVec 12),
    ∃ t, exec (.setDec cls raw) s = .next t ∧
      (t.ep cls).decayStep.toNat = (16777216 / max raw.toNat 5 * 1024) / s.cfg.durTicksDecay ∧
      1 ≤ (t.ep cls).decayStep.toNat ∧ t.ep cls = { s.ep cls with decayStep := (t.ep cls).decayStep } ∧
      t.responses = 0 :: s.responses ∧ onlyParamsWritten cls s t

/-- SETREL stores the release step of R100 for the clamped rate (R106, R35). -/
def Obligations.SetRelStoresTheReleaseStep : Prop :=
  ∀ (s : State) (cls : ParamClass) (raw : BitVec 12),
    ∃ t, exec (.setRel cls raw) s = .next t ∧
      (t.ep cls).releaseStep.toNat = (16777216 / max raw.toNat 5 * 1024) / s.cfg.durTicksRelease ∧
      1 ≤ (t.ep cls).releaseStep.toNat ∧ t.ep cls = { s.ep cls with releaseStep := (t.ep cls).releaseStep } ∧
      t.responses = 0 :: s.responses ∧ onlyParamsWritten cls s t

/-- SETSUS stores the level as given (R107). -/
def Obligations.SetSusStoresTheLevel : Prop :=
  ∀ (s : State) (cls : ParamClass) (level : BitVec 12),
    ∃ t, exec (.setSus cls level) s = .next t ∧ t.ep cls = { s.ep cls with sustainLevel := level } ∧
      t.responses = 0 :: s.responses ∧ onlyParamsWritten cls s t

/-- Rate values 0 to 5 store the same step, for each of the three segments (R108). -/
def Obligations.RatesBelowTheFloorAreClamped : Prop :=
  ∀ (s : State) (cls : ParamClass) (raw : BitVec 12), raw.toNat ≤ 5 →
    exec (.setAtk cls raw) s = exec (.setAtk cls 5) s ∧ exec (.setDec cls raw) s = exec (.setDec cls 5) s ∧
      exec (.setRel cls raw) s = exec (.setRel cls 5) s

/-- The filter envelope is one shared instance: GATEON of any slot puts it into ATTACK at phase 0, and nothing
else writes it but GATEOFF, INIT and ENVSTEP of the filter slot (R110). -/
def Obligations.FilterEnvelopeWrittenOnlyByItsCommands : Prop :=
  (∀ (s t : State) (slot : BitVec 8), s.filesSized → slot.toNat ≤ s.cfg.maxVoice → exec (.gateOn slot) s = .next t →
    (t.envAt s.cfg.filterSlot).phase = 0 ∧ (t.envAt s.cfg.filterSlot).mode = .attack) ∧
  (∀ (s t : State) (i : Instr), exec i s = .next t → t.envAt s.cfg.filterSlot ≠ s.envAt s.cfg.filterSlot →
    (∃ dbg, i = .init dbg) ∨ (∃ slot, i = .gateOn slot) ∨
      (∃ slot, i = .gateOff slot ∧ slot.toNat = s.cfg.filterSlot) ∨
      (∃ slot cls, i = .envStep slot cls ∧ slot.toNat = s.cfg.filterSlot))

/-! The envelope step (spec/41_envelope_step.md). -/

/-- ENVSTEP in ATTACK (R123): it crosses to DECAY keeping the output, or reads the table ascending at the
advanced phase. -/
def Obligations.EnvStepInAttack : Prop :=
  ∀ (s : State) (slot : BitVec 8) (cls : ParamClass) (e : EnvSlot), slot.toNat ≤ s.cfg.maxVoice →
    s.env[slot.toNat]? = some e → e.mode = .attack →
    ∃ t e', exec (.envStep slot cls) s = .next t ∧ t.env[slot.toNat]? = some e' ∧
      (Config.vtim ≤ e.phase.toNat + (s.ep cls).attackStep.toNat → e' = { e with phase := 0, mode := .decay }) ∧
      (e.phase.toNat + (s.ep cls).attackStep.toNat < Config.vtim →
        e' = { e with phase := e'.phase, output := e'.output } ∧
        e'.phase.toNat = e.phase.toNat + (s.ep cls).attackStep.toNat ∧
        (s.cfg.envTable[e'.phase.toNat / 1024]?).map Fin.val = some e'.output.toNat) ∧
      t.responses = e'.output.zeroExtend 32 :: s.responses ∧ onlyEnvWritten (fun j => j = slot.toNat) s t

/-- ENVSTEP in DECAY (R124): it enters SUSTAIN at the sustain level when the bound is reached or the descending
read is at or below that level, and otherwise follows the descending read. -/
def Obligations.EnvStepInDecay : Prop :=
  ∀ (s : State) (slot : BitVec 8) (cls : ParamClass) (e : EnvSlot), slot.toNat ≤ s.cfg.maxVoice →
    s.env[slot.toNat]? = some e → e.mode = .decay →
    ∃ t e', exec (.envStep slot cls) s = .next t ∧ t.env[slot.toNat]? = some e' ∧
      (Config.vtim ≤ e.phase.toNat + (s.ep cls).decayStep.toNat →
        e' = { e with phase := 0, mode := .sustain, output := (s.ep cls).sustainLevel.zeroExtend 16 }) ∧
      (∀ d, e.phase.toNat + (s.ep cls).decayStep.toNat < Config.vtim →
        s.cfg.envTable[4095 - (e.phase.toNat + (s.ep cls).decayStep.toNat) / 1024]? = some d →
        (d.val ≤ (s.ep cls).sustainLevel.toNat →
          e' = { e with phase := 0, mode := .sustain, output := (s.ep cls).sustainLevel.zeroExtend 16 }) ∧
        ((s.ep cls).sustainLevel.toNat < d.val →
          e' = { e with phase := e'.phase, output := e'.output } ∧
          e'.phase.toNat = e.phase.toNat + (s.ep cls).decayStep.toNat ∧ e'.output.toNat = d.val)) ∧
      t.responses = e'.output.zeroExtend 32 :: s.responses ∧ onlyEnvWritten (fun j => j = slot.toNat) s t

/-- ENVSTEP in SUSTAIN (R125): the output is the sustain level of the class named, phase and mode stay. -/
def Obligations.EnvStepInSustain : Prop :=
  ∀ (s : State) (slot : BitVec 8) (cls : ParamClass) (e : EnvSlot), slot.toNat ≤ s.cfg.maxVoice →
    s.env[slot.toNat]? = some e → e.mode = .sustain →
    ∃ t, exec (.envStep slot cls) s = .next t ∧
      t.env[slot.toNat]? = some { e with output := (s.ep cls).sustainLevel.zeroExtend 16 } ∧
      t.responses = (s.ep cls).sustainLevel.zeroExtend 32 :: s.responses ∧
      onlyEnvWritten (fun j => j = slot.toNat) s t

/-- ENVSTEP in RELEASE (R126): it enters STOPPING at output 0 when the bound is reached or the scaled value is
at most 1, and otherwise follows the descending read scaled by `releaseStartLevel`. -/
def Obligations.EnvStepInRelease : Prop :=
  ∀ (s : State) (slot : BitVec 8) (cls : ParamClass) (e : EnvSlot), slot.toNat ≤ s.cfg.maxVoice →
    s.env[slot.toNat]? = some e → e.mode = .release →
    ∃ t e', exec (.envStep slot cls) s = .next t ∧ t.env[slot.toNat]? = some e' ∧
      (Config.vtim ≤ e.phase.toNat + (s.ep cls).releaseStep.toNat →
        e' = { e with phase := 0, mode := .stopping, output := 0 }) ∧
      (∀ d, e.phase.toNat + (s.ep cls).releaseStep.toNat < Config.vtim →
        s.cfg.envTable[4095 - (e.phase.toNat + (s.ep cls).releaseStep.toNat) / 1024]? = some d →
        (d.val * e.releaseStartLevel.toNat / 4096 ≤ 1 → e' = { e with phase := 0, mode := .stopping, output := 0 }) ∧
        (1 < d.val * e.releaseStartLevel.toNat / 4096 →
          e' = { e with phase := e'.phase, output := e'.output } ∧
          e'.phase.toNat = e.phase.toNat + (s.ep cls).releaseStep.toNat ∧
          e'.output.toNat = d.val * e.releaseStartLevel.toNat / 4096)) ∧
      t.responses = e'.output.zeroExtend 32 :: s.responses ∧ onlyEnvWritten (fun j => j = slot.toNat) s t

/-- ENVSTEP in STOP and in STOPPING writes no field and returns the output, which is 0 in a sound entry (R127,
R128, R133). -/
def Obligations.EnvStepIsIdempotentWhenStopped : Prop :=
  ∀ (s : State) (slot : BitVec 8) (cls : ParamClass) (e : EnvSlot), slot.toNat ≤ s.cfg.maxVoice →
    s.env[slot.toNat]? = some e → e.mode = .stop ∨ e.mode = .stopping →
    exec (.envStep slot cls) s = .next { s with responses := e.output.zeroExtend 32 :: s.responses } ∧
      (e.sound → e.output.zeroExtend 32 = 0#32)

/-- The mode of an envelope slot changes only along the arcs of R129. -/
def Obligations.ModesChangeOnlyAlongTheArcs : Prop :=
  (∀ (s t : State) (i : Instr) (j : Nat), exec i s = .next t →
    (t.envAt j).mode = (s.envAt j).mode ∨ execArc s i j (s.envAt j).mode (t.envAt j).mode) ∧
  (∀ (s t : State) (e : DecodeError) (c : Command), decode c = .error e → transact c s = .next t → t.env = s.env) ∧
  (∀ (s t : State) (j : Nat), acceptInput .reset s = .next t → (t.envAt j).mode = .stop)

/-- From phase 0 in ATTACK, with a step of at least 1, the ENVSTEP that moves the slot to DECAY is the
`ceil(VTIM / attackStep)`-th, and every earlier one leaves it in ATTACK at `k` times the step (R130). -/
def Obligations.AttackCrossesAtTheCeilingCount : Prop :=
  ∀ (s : State) (slot : BitVec 8) (cls : ParamClass) (e : EnvSlot), slot.toNat ≤ s.cfg.maxVoice →
    s.env[slot.toNat]? = some e → e.mode = .attack → e.phase = 0 → 1 ≤ (s.ep cls).attackStep.toNat →
    (∀ k, k * (s.ep cls).attackStep.toNat < Config.vtim →
      ∃ t, execTimes (.envStep slot cls) k s = .next t ∧ (t.envAt slot.toNat).mode = .attack ∧
        (t.envAt slot.toNat).phase.toNat = k * (s.ep cls).attackStep.toNat) ∧
    (∃ t, execTimes (.envStep slot cls)
        ((Config.vtim + (s.ep cls).attackStep.toNat - 1) / (s.ep cls).attackStep.toNat) s = .next t ∧
      (t.envAt slot.toNat).mode = .decay ∧ (t.envAt slot.toNat).phase = 0)

/-- With a step of 0 an ATTACK slot never leaves ATTACK by ENVSTEP: the phase stays and every step returns the
table's value at that phase (R136, R196). -/
def Obligations.ZeroStepStallsTheAttack : Prop :=
  ∀ (s : State) (slot : BitVec 8) (cls : ParamClass) (e : EnvSlot) (n : Nat), slot.toNat ≤ s.cfg.maxVoice →
    s.env[slot.toNat]? = some e → e.mode = .attack → e.phase.toNat < Config.vtim → (s.ep cls).attackStep = 0 →
    ∃ t a, execTimes (.envStep slot cls) n s = .next t ∧ (t.envAt slot.toNat).mode = .attack ∧
      (t.envAt slot.toNat).phase = e.phase ∧ (s.cfg.envTable[e.phase.toNat / 1024]?).map Fin.val = some a.toNat ∧
      t.responses = List.replicate n a ++ s.responses

/-- In SUSTAIN, `n` ENVSTEPs of one class return the sustain level `n` times and leave the mode (R125, R131). -/
def Obligations.SustainReturnsTheLevelForever : Prop :=
  ∀ (s : State) (slot : BitVec 8) (cls : ParamClass) (e : EnvSlot) (n : Nat), slot.toNat ≤ s.cfg.maxVoice →
    s.env[slot.toNat]? = some e → e.mode = .sustain →
    ∃ t, execTimes (.envStep slot cls) n s = .next t ∧ (t.envAt slot.toNat).mode = .sustain ∧
      t.responses = List.replicate n ((s.ep cls).sustainLevel.zeroExtend 32) ++ s.responses

/-- After a GATEOFF at output X every amplitude the following ENVSTEPs return is at most X, and for a table
that never falls the amplitudes never rise (R132). -/
def Obligations.ReleaseNeverExceedsItsStart : Prop :=
  ∀ (s u : State) (slot : BitVec 8) (cls : ParamClass) (e : EnvSlot) (n : Nat), slot.toNat ≤ s.cfg.maxVoice →
    s.env[slot.toNat]? = some e → exec (.gateOff slot) s = .next u →
    ∃ t as, execTimes (.envStep slot cls) n u = .next t ∧ t.responses = as ++ u.responses ∧ as.length = n ∧
      (∀ a ∈ as, a.toNat ≤ e.output.toNat) ∧
      (envTableRises s.cfg → as.Pairwise fun later earlier => later.toNat ≤ earlier.toNat)

/-- The parameters are not latched: a SETSUS during SUSTAIN changes the next amplitude (R109, R125). -/
def Obligations.SetSusActsOnTheNextStep : Prop :=
  ∀ (s : State) (slot : BitVec 8) (cls : ParamClass) (level : BitVec 12) (e : EnvSlot), slot.toNat ≤ s.cfg.maxVoice →
    s.env[slot.toNat]? = some e → e.mode = .sustain →
    ∃ u t, exec (.setSus cls level) s = .next u ∧ exec (.envStep slot cls) u = .next t ∧
      t.responses = level.zeroExtend 32 :: 0 :: s.responses

/-! The oscillator engine (spec/42_oscillator.md). -/

/-- SELWAVE sets the active waveform and recomputes nothing (R140). -/
def Obligations.SelWaveSetsTheWaveform : Prop :=
  ∀ (s : State) (kind : Wave),
    ∃ t, exec (.selWave kind) s = .next t ∧ t.wave = kind ∧ t.modRatio = s.modRatio ∧ t.pulseWidth = s.pulseWidth ∧
      t.responses = 0 :: s.responses ∧ onlySettingsWritten s t

/-- SETMODRATIO sets the ratio and changes no oscillator entry: `modulatorStep` stays latched (R143, R199). -/
def Obligations.SetModRatioSetsTheRatio : Prop :=
  ∀ (s : State) (ratio : BitVec 16),
    ∃ t, exec (.setModRatio ratio) s = .next t ∧ t.modRatio = ratio ∧ t.wave = s.wave ∧ t.pulseWidth = s.pulseWidth ∧
      t.responses = 0 :: s.responses ∧ onlySettingsWritten s t

/-- SETPW sets the pulse width (R144). -/
def Obligations.SetPwSetsThePulseWidth : Prop :=
  ∀ (s : State) (width : BitVec 12),
    ∃ t, exec (.setPw width) s = .next t ∧ t.pulseWidth = width ∧ t.wave = s.wave ∧ t.modRatio = s.modRatio ∧
      t.responses = 0 :: s.responses ∧ onlySettingsWritten s t

/-- SETFREQ stores the carrier step of the active waveform's range, the pitch and the timestamp, and no phase
(R141, R205). -/
def Obligations.SetFreqStoresTheCarrierStep : Prop :=
  ∀ (s : State) (slot : BitVec 8) (pitch : BitVec 16) (ts : Word) (o : OscSlot), slot.toNat < s.cfg.maxVoice →
    s.osc[slot.toNat]? = some o →
    ∃ t o', exec (.setFreq slot pitch ts) s = .next t ∧ t.osc[slot.toNat]? = some o' ∧
      o'.carrierStep.toNat = (Config.range s.wave * pitch.toNat * 1024) / 25000 ∧
      o' = { o with carrierStep := o'.carrierStep, note := pitch, activationTimestamp := ts } ∧
      t.responses = 0 :: s.responses ∧ onlyOscWritten slot.toNat s t

/-- SETFMFREQ stores both steps, the depth difference, the restarted modulation envelope, the pitch and the
timestamp, and no oscillator phase (R142, R205). -/
def Obligations.SetFmFreqStoresBothSteps : Prop :=
  ∀ (s : State) (slot : BitVec 8) (pitch : BitVec 16) (ts : Word) (o : OscSlot), slot.toNat < s.cfg.maxVoice →
    s.osc[slot.toNat]? = some o →
    ∃ t o', exec (.setFmFreq slot pitch ts) s = .next t ∧ t.osc[slot.toNat]? = some o' ∧
      o'.carrierStep.toNat = (4096 * pitch.toNat * 1024) / 25000 ∧
      o'.modulatorStep.toNat = o'.carrierStep.toNat * s.modRatio.toNat / 256 ∧
      o'.volumeDiff.toInt = (s.cfg.fmStartDepth.val : Int) - (s.cfg.fmEndDepth.val : Int) ∧
      o'.modEnvPhase = 0 ∧ o'.modEnvStep.toNat = (16777216 / s.cfg.fmEnvRaw * 1024) / s.cfg.durTicksFmEnv ∧
      o' = { o with carrierStep := o'.carrierStep, modulatorStep := o'.modulatorStep, volumeDiff := o'.volumeDiff,
                    modEnvPhase := 0, modEnvStep := o'.modEnvStep, note := pitch, activationTimestamp := ts } ∧
      t.responses = 0 :: s.responses ∧ onlyOscWritten slot.toNat s t

/-- OSCSTEP advances the carrier phase modulo the waveform's phase range and returns the sample of the active
table at the new index; only the carrier phase and the sample are written (R151). -/
def Obligations.OscStepReadsTheActiveTable : Prop :=
  ∀ (s : State) (slot : BitVec 8) (o : OscSlot), slot.toNat < s.cfg.maxVoice → s.osc[slot.toNat]? = some o →
    ∃ t o', exec (.oscStep slot) s = .next t ∧ t.osc[slot.toNat]? = some o' ∧
      o'.carrierPhase.toNat = (o.carrierPhase.toNat + o.carrierStep.toNat) % (Config.range s.wave * 1024) ∧
      (s.wave = .saw → s.cfg.sawTable[o'.carrierPhase.toNat / 1024]? = some o'.sample) ∧
      (s.wave = .sine → s.cfg.sineTable[o'.carrierPhase.toNat / 1024]? = some o'.sample) ∧
      (s.wave = .triangle → s.cfg.triTable[o'.carrierPhase.toNat / 1024]? = some o'.sample) ∧
      o' = { o with carrierPhase := o'.carrierPhase, sample := o'.sample } ∧
      t.responses = o'.sample.signExtend 32 :: s.responses ∧ onlyOscWritten slot.toNat s t

/-- OSCSTEP under the square waveform: plus full scale below the clamped threshold, minus full scale from it
on, so at least the last index of a period is low (R150, R151). -/
def Obligations.OscStepSquareFollowsTheThreshold : Prop :=
  ∀ (s : State) (slot : BitVec 8) (o : OscSlot), slot.toNat < s.cfg.maxVoice → s.osc[slot.toNat]? = some o →
    s.wave = .square →
    ∃ t o', exec (.oscStep slot) s = .next t ∧ t.osc[slot.toNat]? = some o' ∧
      o'.carrierPhase.toNat = (o.carrierPhase.toNat + o.carrierStep.toNat) % 4194304 ∧
      (o'.carrierPhase.toNat / 1024 < min (s.pulseWidth.toNat * 4096 / 4096) 4095 →
        o'.sample.toInt = (s.cfg.fullScale.val : Int)) ∧
      (min (s.pulseWidth.toNat * 4096 / 4096) 4095 ≤ o'.carrierPhase.toNat / 1024 →
        o'.sample.toInt = -(s.cfg.fullScale.val : Int)) ∧
      t.responses = o'.sample.signExtend 32 :: s.responses

/-- OSCSTEPFM part 1, the modulation-depth envelope (R153): below the bound it advances and scales the
descending read with floor; on the crossing it is held at the bound with the end depth; then nothing. -/
def Obligations.OscStepFmDepthEnvelope : Prop :=
  ∀ (s : State) (slot : BitVec 8) (o : OscSlot), slot.toNat < s.cfg.maxVoice → s.osc[slot.toNat]? = some o →
    ∃ t o', exec (.oscStepFm slot) s = .next t ∧ t.osc[slot.toNat]? = some o' ∧
      (∀ d, o.modEnvPhase.toNat < Config.vtim → o.modEnvPhase.toNat + o.modEnvStep.toNat < Config.vtim →
        s.cfg.envTable[4095 - (o.modEnvPhase.toNat + o.modEnvStep.toNat) / 1024]? = some d →
        o'.modEnvPhase.toNat = o.modEnvPhase.toNat + o.modEnvStep.toNat ∧
        o'.currentModVolume =
          BitVec.ofInt 32 ((s.cfg.fmEndDepth.val : Int) + Int.fdiv ((d.val : Int) * o.volumeDiff.toInt) 4096)) ∧
      (o.modEnvPhase.toNat < Config.vtim → Config.vtim ≤ o.modEnvPhase.toNat + o.modEnvStep.toNat →
        o'.modEnvPhase.toNat = Config.vtim ∧ o'.currentModVolume.toInt = (s.cfg.fmEndDepth.val : Int)) ∧
      (Config.vtim ≤ o.modEnvPhase.toNat →
        o'.modEnvPhase = o.modEnvPhase ∧ o'.currentModVolume = o.currentModVolume)

/-- OSCSTEPFM part 2 and its frame: both phases advance modulo the sine table's phase range, whatever `WAVE`
is, and of the entry only the phases, the depth envelope and the sample are written (R152, R154). -/
def Obligations.OscStepFmAdvancesBothPhases : Prop :=
  ∀ (s : State) (slot : BitVec 8) (o : OscSlot), slot.toNat < s.cfg.maxVoice → s.osc[slot.toNat]? = some o →
    ∃ t o', exec (.oscStepFm slot) s = .next t ∧ t.osc[slot.toNat]? = some o' ∧
      o'.carrierPhase.toNat = (o.carrierPhase.toNat + o.carrierStep.toNat) % 4194304 ∧
      o'.modulatorPhase.toNat = (o.modulatorPhase.toNat + o.modulatorStep.toNat) % 4194304 ∧
      o' = { o with carrierPhase := o'.carrierPhase, modulatorPhase := o'.modulatorPhase,
                    modEnvPhase := o'.modEnvPhase, currentModVolume := o'.currentModVolume, sample := o'.sample } ∧
      t.responses = o'.sample.signExtend 32 :: s.responses ∧ onlyOscWritten slot.toNat s t

/-- OSCSTEPFM parts 3 and 4 (R155, R156): the modulator sample times the depth, scaled by two floor shifts and
reduced to a Euclidean residue, offsets the carrier index of the output lookup. -/
def Obligations.OscStepFmOutputLookup : Prop :=
  ∀ (s : State) (slot : BitVec 8) (o : OscSlot), slot.toNat < s.cfg.maxVoice → s.osc[slot.toNat]? = some o →
    ∃ t o' m, exec (.oscStepFm slot) s = .next t ∧ t.osc[slot.toNat]? = some o' ∧
      s.cfg.sineTable[o'.modulatorPhase.toNat / 1024]? = some m ∧
      s.cfg.sineTable[(o'.carrierPhase.toNat / 1024 +
        (Int.fdiv (Int.fdiv (m.toInt * o'.currentModVolume.toInt) 1024) 2 % 4096).toNat) % 4096]? = some o'.sample

/-- The two engines share no state: ENVSTEP and a step of an oscillator return the same amplitude and sample,
and leave the same state, in either order (R159, R200). -/
def Obligations.EnginesCommute : Prop :=
  ∀ (s : State) (slot voice : BitVec 8) (cls : ParamClass) (i : Instr), slot.toNat ≤ s.cfg.maxVoice →
    voice.toNat < s.cfg.maxVoice → i = .oscStep voice ∨ i = .oscStepFm voice →
    ∃ s1 s2 t1 t2 amp smp,
      exec (.envStep slot cls) s = .next s1 ∧ exec i s1 = .next s2 ∧
      exec i s = .next t1 ∧ exec (.envStep slot cls) t1 = .next t2 ∧
      s2.responses = smp :: amp :: s.responses ∧ t2.responses = amp :: smp :: s.responses ∧
      { s2 with responses := [] } = { t2 with responses := [] }

/-! Reset and the invariants of the state (spec/10_state.md). -/

/-- The invariant holds after reset, for every configuration and so for the hardware's (R38, R40, R45, R46, R52). -/
def Obligations.ResetIsSound : Prop :=
  (∀ c : Config, (State.resetWith c).sound) ∧ State.reset.sound ∧ State.reset.faultFree

/-- The invariant of the block is kept by every step: the slot files keep their sizes, the envelope entries
the invariants of R38, the oscillator entries those of R40, the fault registers those of R45 and R46. -/
def Obligations.StepKeepsSound : Prop :=
  ∀ s t : State, s.sound → step s = .next t → t.sound

/-- No step changes the configuration (R209). -/
def Obligations.StepKeepsTheConfiguration : Prop :=
  ∀ s t : State, step s = .next t → t.cfg = s.cfg

/-- Directly after reset ENVSTEP of any slot returns 0, and OSCSTEP of any voice returns the saw table's entry 0
however often it is repeated (R192). -/
def Obligations.FreshBlockReturnsIndexZero : Prop :=
  ∀ (c : Config) (n : Nat),
    (∀ (slot : BitVec 8) (cls : ParamClass), slot.toNat ≤ c.maxVoice →
      ∃ t, execTimes (.envStep slot cls) n (State.resetWith c) = .next t ∧ t.responses = List.replicate n 0) ∧
    (∀ slot : BitVec 8, slot.toNat < c.maxVoice →
      ∃ t, execTimes (.oscStep slot) n (State.resetWith c) = .next t ∧
        t.responses = List.replicate n ((c.sawTable[0]).signExtend 32))

/-! The assembler (spec/30_encoding.md R95 to R97). -/

/-- A command line of R95, or a `.word` of R97, whose operands have values is refused as too large when a value
does not fit its field of R82, and otherwise assembles to the encoding of the command with exactly those
values: the assembler never truncates. That a waveform name is read before a value, whatever the symbol table
holds, that the waveform names are among R95's case-insensitive keywords, and that a symbol may stand for a
waveform are the model's choices (log 11). -/
def Obligations.AssemblerNeverTruncates : Prop :=
  ∀ (maxVoice : Nat) (a : AsmState),
    assembleWord maxVoice a .init [] = .ok (a.emit [.init false]) ∧
    (∀ x v, valueOf a.syms x = .ok v →
      assembleWord maxVoice a .init [x] = (if v < 2 then .ok (a.emit [.init (v == 1)]) else .error .tooLarge) ∧
      assembleWord maxVoice a .gateon [x] =
        (if v < 256 then .ok (a.emit [.gateOn (.ofNat 8 v)]) else .error .tooLarge) ∧
      assembleWord maxVoice a .gateoff [x] =
        (if v < 256 then .ok (a.emit [.gateOff (.ofNat 8 v)]) else .error .tooLarge) ∧
      assembleWord maxVoice a .oscstep [x] =
        (if v < 256 then .ok (a.emit [.oscStep (.ofNat 8 v)]) else .error .tooLarge) ∧
      assembleWord maxVoice a .oscstepfm [x] =
        (if v < 256 then .ok (a.emit [.oscStepFm (.ofNat 8 v)]) else .error .tooLarge) ∧
      assembleWord maxVoice a .setmodratio [x] =
        (if v < 65536 then .ok (a.emit [.setModRatio (.ofNat 16 v)]) else .error .tooLarge) ∧
      assembleWord maxVoice a .setpw [x] =
        (if v < 4096 then .ok (a.emit [.setPw (.ofNat 12 v)]) else .error .tooLarge) ∧
      (lowerCase x ∉ ["saw".toList, "sine".toList, "tri".toList, "square".toList] →
        assembleWord maxVoice a .selwave [x] =
          (if v < 4 then .ok (a.emit [.selWave (.ofCode (.ofNat 2 v))]) else .error .tooLarge)) ∧
      assembleWord maxVoice a .word [x] =
        (if v < 4294967296 then .ok { a with out := a.out ++ [⟨.ofNat 32 v, 0⟩] } else .error .tooLarge)) ∧
    (∀ x w, (lowerCase x, w) ∈ [("saw".toList, Wave.saw), ("sine".toList, .sine), ("tri".toList, .triangle),
        ("square".toList, .square)] → assembleWord maxVoice a .selwave [x] = .ok (a.emit [.selWave w])) ∧
    (∀ c x cls v, classOf c = .ok cls → valueOf a.syms x = .ok v →
      assembleWord maxVoice a .setatk [c, x] =
        (if v < 4096 then .ok (a.emit [.setAtk cls (.ofNat 12 v)]) else .error .tooLarge) ∧
      assembleWord maxVoice a .setdec [c, x] =
        (if v < 4096 then .ok (a.emit [.setDec cls (.ofNat 12 v)]) else .error .tooLarge) ∧
      assembleWord maxVoice a .setrel [c, x] =
        (if v < 4096 then .ok (a.emit [.setRel cls (.ofNat 12 v)]) else .error .tooLarge) ∧
      assembleWord maxVoice a .setsus [c, x] =
        (if v < 4096 then .ok (a.emit [.setSus cls (.ofNat 12 v)]) else .error .tooLarge) ∧
      assembleWord maxVoice a .envstep [x, c] =
        (if v < 256 then .ok (a.emit [.envStep (.ofNat 8 v) cls]) else .error .tooLarge)) ∧
    (∀ x y v w, valueOf a.syms x = .ok v → valueOf a.syms y = .ok w →
      assembleWord maxVoice a .word [x, y] =
        (if v < 4294967296 ∧ w < 4294967296 then .ok { a with out := a.out ++ [⟨.ofNat 32 v, .ofNat 32 w⟩] }
          else .error .tooLarge)) ∧
    (∀ x y z slot pitch ts, valueOf a.syms x = .ok slot → valueOf a.syms y = .ok pitch → valueOf a.syms z = .ok ts →
      assembleWord maxVoice a .setfreq [x, y, z] =
        (if slot < 256 ∧ pitch < 65536 ∧ ts < 4294967296 then
            .ok (a.emit [.setFreq (.ofNat 8 slot) (.ofNat 16 pitch) (.ofNat 32 ts)])
          else .error .tooLarge) ∧
      assembleWord maxVoice a .setfmfreq [x, y, z] =
        (if slot < 256 ∧ pitch < 65536 ∧ ts < 4294967296 then
            .ok (a.emit [.setFmFreq (.ofNat 8 slot) (.ofNat 16 pitch) (.ofNat 32 ts)])
          else .error .tooLarge))

/-- Each pseudo-instruction assembles to what the lines of its expansion assemble to one after the other, and
is refused with the error they are refused with (R96); `filtstep` and `filtoff` where `FILTER_SLOT` stands for
`MAXVOICE` (the two take `MAXVOICE` itself, the model's choice, log 11). -/
def Obligations.PseudoInstructionsExpand : Prop :=
  ∀ (maxVoice : Nat) (a : AsmState),
    (∀ s c, assembleWord maxVoice a .tick [s, c] =
      (assembleWord maxVoice a .envstep [s, c] >>= fun a1 => assembleWord maxVoice a1 .oscstep [s])) ∧
    (∀ s c, assembleWord maxVoice a .tickfm [s, c] =
      (assembleWord maxVoice a .envstep [s, c] >>= fun a1 => assembleWord maxVoice a1 .oscstepfm [s])) ∧
    (∀ c x d s r, assembleWord maxVoice a .setadsr [c, x, d, s, r] =
      (assembleWord maxVoice a .setatk [c, x] >>= fun a1 => assembleWord maxVoice a1 .setdec [c, d] >>= fun a2 =>
        assembleWord maxVoice a2 .setsus [c, s] >>= fun a3 => assembleWord maxVoice a3 .setrel [c, r])) ∧
    (maxVoice ≤ 255 → a.syms.find? (fun p => p.1 == "FILTER_SLOT".toList) = some ("FILTER_SLOT".toList, maxVoice) →
      assembleWord maxVoice a .filtstep [] = assembleWord maxVoice a .envstep ["FILTER_SLOT".toList, "filter".toList] ∧
      assembleWord maxVoice a .filtoff [] = assembleWord maxVoice a .gateoff ["FILTER_SLOT".toList])
end

