-- ==== Sys2Proof/Laws/Assembler.lean ====
section
/-! SUPPORT. What the assembler's shared operations can do: the reader of a field, and the addition of
commands to what was assembled. -/

namespace Sys2Proof.Machine

/-- The reader of a field whose operand has a value: that value if it fits the field, else the refusal. -/
theorem fieldOf_of_valueOf {n : Nat} {syms : Symbols} {w : List Char} {v : Nat} (h : valueOf syms w = .ok v) :
    fieldOf n syms w = if v < 2 ^ n then .ok (BitVec.ofNat n v) else .error .tooLarge := by
  simp only [fieldOf, h]

/-- A field that was read holds exactly its operand's value. -/
theorem valueOf_of_fieldOf {n : Nat} {syms : Symbols} {w : List Char} {x : BitVec n}
    (h : fieldOf n syms w = .ok x) : valueOf syms w = .ok x.toNat := by
  unfold fieldOf at h
  split at h
  · rename_i v hv
    split at h
    · rename_i hlt
      rw [hv, ← Except.ok.inj h, BitVec.toNat_ofNat, Nat.mod_eq_of_lt hlt]
    · exact nomatch h
  · exact nomatch h

@[simp] theorem emit_syms (a : AsmState) (is : List Instr) : (a.emit is).syms = a.syms := rfl
@[simp] theorem emit_stack (a : AsmState) (is : List Instr) : (a.emit is).stack = a.stack := rfl
@[simp] theorem emit_out (a : AsmState) (is : List Instr) : (a.emit is).out = a.out ++ is.map encode := rfl

/-- Adding commands in two goes is adding them in one. -/
@[simp] theorem emit_emit (a : AsmState) (is js : List Instr) : (a.emit is).emit js = a.emit (is ++ js) := by
  simp [AsmState.emit]

/-- A command or pseudo-instruction line adds the commands it expands to, or is refused with their error. -/
theorem assembleWord_of_instrsOf {maxVoice : Nat} {a : AsmState} {k : Keyword} {ops : List (List Char)}
    (h : k ≠ .rept ∧ k ≠ .endr ∧ k ≠ .equ ∧ k ≠ .word) :
    assembleWord maxVoice a k ops = (instrsOf maxVoice a.syms k ops).map a.emit := by
  obtain ⟨h1, h2, h3, h4⟩ := h
  unfold assembleWord
  split
  · exact absurd rfl h1
  · exact absurd rfl h2
  · exact absurd rfl h3
  · exact absurd rfl h4
  · exact absurd rfl h4
  · cases instrsOf maxVoice a.syms k ops <;> rfl

end Sys2Proof.Machine
end

