-- ==== Sys2Proof/Laws/Encoding.lean ====
section
/-! SUPPORT. The bits of a command word built from its fields, and the fields read back from it
(spec/30_encoding.md R81). -/

namespace Sys2Proof

/-- Bit `i` of `{OP, SLOT, CLS, RSV = 0, IMM}`. -/
theorem getLsbD_cmdWord (op : BitVec 4) (slot : BitVec 8) (cls : BitVec 1) (imm : BitVec 16) (i : Nat) :
    (cmdWord op slot cls imm).getLsbD i =
      if i < 16 then imm.getLsbD i else if i < 19 then false else if i < 20 then cls.getLsbD (i - 19)
      else if i < 28 then slot.getLsbD (i - 20) else op.getLsbD (i - 28) := by
  simp only [cmdWord, BitVec.getLsbD_append]
  repeat' split
  all_goals first | rfl | omega | simp

theorem opField_cmdWord (op : BitVec 4) (slot : BitVec 8) (cls : BitVec 1) (imm : BitVec 16) :
    opField (cmdWord op slot cls imm) = op := by
  apply BitVec.eq_of_getLsbD_eq
  intro i hi
  simp only [opField, BitVec.getLsbD_extractLsb', getLsbD_cmdWord, hi]
  rw [if_neg (by omega), if_neg (by omega), if_neg (by omega), if_neg (by omega)]
  simp

theorem slotField_cmdWord (op : BitVec 4) (slot : BitVec 8) (cls : BitVec 1) (imm : BitVec 16) :
    slotField (cmdWord op slot cls imm) = slot := by
  apply BitVec.eq_of_getLsbD_eq
  intro i hi
  simp only [slotField, BitVec.getLsbD_extractLsb', getLsbD_cmdWord, hi]
  rw [if_neg (by omega), if_neg (by omega), if_neg (by omega), if_pos (by omega)]
  simp

theorem clsField_cmdWord (op : BitVec 4) (slot : BitVec 8) (cls : BitVec 1) (imm : BitVec 16) :
    clsField (cmdWord op slot cls imm) = cls := by
  apply BitVec.eq_of_getLsbD_eq
  intro i hi
  simp only [clsField, BitVec.getLsbD_extractLsb', getLsbD_cmdWord, hi]
  rw [if_neg (by omega), if_neg (by omega), if_pos (by omega)]
  simp

theorem immField_cmdWord (op : BitVec 4) (slot : BitVec 8) (cls : BitVec 1) (imm : BitVec 16) :
    immField (cmdWord op slot cls imm) = imm := by
  apply BitVec.eq_of_getLsbD_eq
  intro i hi
  simp only [immField, BitVec.getLsbD_extractLsb', getLsbD_cmdWord, hi]
  rw [if_pos (by omega)]
  simp

end Sys2Proof
end

