-- ==== Sys2Proof/Laws/State.lean ====
section
/-! SUPPORT. One lemma per field per update of the state, so that no later proof unfolds a record update.
The two updates that branch (`setEp` on the class, `recordFault` on the first fault) come last. -/

namespace Sys2Proof.Machine

variable (s : State)

/-! Fields after `ENV[i] <- e`. -/

@[simp] theorem setEnvAt_cfg (i : Nat) (e : EnvSlot) :
    (s.setEnvAt i e).cfg = s.cfg := rfl
@[simp] theorem setEnvAt_epVoice (i : Nat) (e : EnvSlot) :
    (s.setEnvAt i e).epVoice = s.epVoice := rfl
@[simp] theorem setEnvAt_epFilter (i : Nat) (e : EnvSlot) :
    (s.setEnvAt i e).epFilter = s.epFilter := rfl
@[simp] theorem setEnvAt_env (i : Nat) (e : EnvSlot) :
    (s.setEnvAt i e).env = s.env.set i e := rfl
@[simp] theorem setEnvAt_osc (i : Nat) (e : EnvSlot) :
    (s.setEnvAt i e).osc = s.osc := rfl
@[simp] theorem setEnvAt_wave (i : Nat) (e : EnvSlot) :
    (s.setEnvAt i e).wave = s.wave := rfl
@[simp] theorem setEnvAt_modRatio (i : Nat) (e : EnvSlot) :
    (s.setEnvAt i e).modRatio = s.modRatio := rfl
@[simp] theorem setEnvAt_pulseWidth (i : Nat) (e : EnvSlot) :
    (s.setEnvAt i e).pulseWidth = s.pulseWidth := rfl
@[simp] theorem setEnvAt_status (i : Nat) (e : EnvSlot) :
    (s.setEnvAt i e).status = s.status := rfl
@[simp] theorem setEnvAt_faultCmd (i : Nat) (e : EnvSlot) :
    (s.setEnvAt i e).faultCmd = s.faultCmd := rfl
@[simp] theorem setEnvAt_inbox (i : Nat) (e : EnvSlot) :
    (s.setEnvAt i e).inbox = s.inbox := rfl
@[simp] theorem setEnvAt_responses (i : Nat) (e : EnvSlot) :
    (s.setEnvAt i e).responses = s.responses := rfl

/-! Fields after `OSC[i] <- o`. -/

@[simp] theorem setOscAt_cfg (i : Nat) (o : OscSlot) :
    (s.setOscAt i o).cfg = s.cfg := rfl
@[simp] theorem setOscAt_epVoice (i : Nat) (o : OscSlot) :
    (s.setOscAt i o).epVoice = s.epVoice := rfl
@[simp] theorem setOscAt_epFilter (i : Nat) (o : OscSlot) :
    (s.setOscAt i o).epFilter = s.epFilter := rfl
@[simp] theorem setOscAt_env (i : Nat) (o : OscSlot) :
    (s.setOscAt i o).env = s.env := rfl
@[simp] theorem setOscAt_osc (i : Nat) (o : OscSlot) :
    (s.setOscAt i o).osc = s.osc.set i o := rfl
@[simp] theorem setOscAt_wave (i : Nat) (o : OscSlot) :
    (s.setOscAt i o).wave = s.wave := rfl
@[simp] theorem setOscAt_modRatio (i : Nat) (o : OscSlot) :
    (s.setOscAt i o).modRatio = s.modRatio := rfl
@[simp] theorem setOscAt_pulseWidth (i : Nat) (o : OscSlot) :
    (s.setOscAt i o).pulseWidth = s.pulseWidth := rfl
@[simp] theorem setOscAt_status (i : Nat) (o : OscSlot) :
    (s.setOscAt i o).status = s.status := rfl
@[simp] theorem setOscAt_faultCmd (i : Nat) (o : OscSlot) :
    (s.setOscAt i o).faultCmd = s.faultCmd := rfl
@[simp] theorem setOscAt_inbox (i : Nat) (o : OscSlot) :
    (s.setOscAt i o).inbox = s.inbox := rfl
@[simp] theorem setOscAt_responses (i : Nat) (o : OscSlot) :
    (s.setOscAt i o).responses = s.responses := rfl

/-! Fields after `RESP <- r`. -/

@[simp] theorem respond_cfg (r : Word) :
    (s.respond r).cfg = s.cfg := rfl
@[simp] theorem respond_epVoice (r : Word) :
    (s.respond r).epVoice = s.epVoice := rfl
@[simp] theorem respond_epFilter (r : Word) :
    (s.respond r).epFilter = s.epFilter := rfl
@[simp] theorem respond_env (r : Word) :
    (s.respond r).env = s.env := rfl
@[simp] theorem respond_osc (r : Word) :
    (s.respond r).osc = s.osc := rfl
@[simp] theorem respond_wave (r : Word) :
    (s.respond r).wave = s.wave := rfl
@[simp] theorem respond_modRatio (r : Word) :
    (s.respond r).modRatio = s.modRatio := rfl
@[simp] theorem respond_pulseWidth (r : Word) :
    (s.respond r).pulseWidth = s.pulseWidth := rfl
@[simp] theorem respond_status (r : Word) :
    (s.respond r).status = s.status := rfl
@[simp] theorem respond_faultCmd (r : Word) :
    (s.respond r).faultCmd = s.faultCmd := rfl
@[simp] theorem respond_inbox (r : Word) :
    (s.respond r).inbox = s.inbox := rfl
@[simp] theorem respond_responses (r : Word) :
    (s.respond r).responses = r :: s.responses := rfl

/-! Fields after a write of `STATUS`. -/

@[simp] theorem writeStatus_cfg (v : Word) :
    (s.writeStatus v).cfg = s.cfg := rfl
@[simp] theorem writeStatus_epVoice (v : Word) :
    (s.writeStatus v).epVoice = s.epVoice := rfl
@[simp] theorem writeStatus_epFilter (v : Word) :
    (s.writeStatus v).epFilter = s.epFilter := rfl
@[simp] theorem writeStatus_env (v : Word) :
    (s.writeStatus v).env = s.env := rfl
@[simp] theorem writeStatus_osc (v : Word) :
    (s.writeStatus v).osc = s.osc := rfl
@[simp] theorem writeStatus_wave (v : Word) :
    (s.writeStatus v).wave = s.wave := rfl
@[simp] theorem writeStatus_modRatio (v : Word) :
    (s.writeStatus v).modRatio = s.modRatio := rfl
@[simp] theorem writeStatus_pulseWidth (v : Word) :
    (s.writeStatus v).pulseWidth = s.pulseWidth := rfl
@[simp] theorem writeStatus_status (v : Word) :
    (s.writeStatus v).status = v &&& statusMask := rfl
@[simp] theorem writeStatus_faultCmd (v : Word) :
    (s.writeStatus v).faultCmd = s.faultCmd := rfl
@[simp] theorem writeStatus_inbox (v : Word) :
    (s.writeStatus v).inbox = s.inbox := rfl
@[simp] theorem writeStatus_responses (v : Word) :
    (s.writeStatus v).responses = s.responses := rfl

/-! Fields after INIT's writes. -/

@[simp] theorem initEnvelopes_cfg :
    s.initEnvelopes.cfg = s.cfg := rfl
@[simp] theorem initEnvelopes_epVoice :
    s.initEnvelopes.epVoice = .reset := rfl
@[simp] theorem initEnvelopes_epFilter :
    s.initEnvelopes.epFilter = .reset := rfl
@[simp] theorem initEnvelopes_env :
    s.initEnvelopes.env = s.env.map fun _ => EnvSlot.reset := rfl
@[simp] theorem initEnvelopes_osc :
    s.initEnvelopes.osc = s.osc := rfl
@[simp] theorem initEnvelopes_wave :
    s.initEnvelopes.wave = s.wave := rfl
@[simp] theorem initEnvelopes_modRatio :
    s.initEnvelopes.modRatio = s.modRatio := rfl
@[simp] theorem initEnvelopes_pulseWidth :
    s.initEnvelopes.pulseWidth = s.pulseWidth := rfl
@[simp] theorem initEnvelopes_status :
    s.initEnvelopes.status = s.status := rfl
@[simp] theorem initEnvelopes_faultCmd :
    s.initEnvelopes.faultCmd = s.faultCmd := rfl
@[simp] theorem initEnvelopes_inbox :
    s.initEnvelopes.inbox = s.inbox := rfl
@[simp] theorem initEnvelopes_responses :
    s.initEnvelopes.responses = s.responses := rfl

/-! Fields after GATEON's write of one entry. -/

@[simp] theorem attackSlot_cfg (i : Nat) :
    (s.attackSlot i).cfg = s.cfg := rfl
@[simp] theorem attackSlot_epVoice (i : Nat) :
    (s.attackSlot i).epVoice = s.epVoice := rfl
@[simp] theorem attackSlot_epFilter (i : Nat) :
    (s.attackSlot i).epFilter = s.epFilter := rfl
@[simp] theorem attackSlot_env (i : Nat) :
    (s.attackSlot i).env = s.env.set i (s.envAt i).attacked := rfl
@[simp] theorem attackSlot_osc (i : Nat) :
    (s.attackSlot i).osc = s.osc := rfl
@[simp] theorem attackSlot_wave (i : Nat) :
    (s.attackSlot i).wave = s.wave := rfl
@[simp] theorem attackSlot_modRatio (i : Nat) :
    (s.attackSlot i).modRatio = s.modRatio := rfl
@[simp] theorem attackSlot_pulseWidth (i : Nat) :
    (s.attackSlot i).pulseWidth = s.pulseWidth := rfl
@[simp] theorem attackSlot_status (i : Nat) :
    (s.attackSlot i).status = s.status := rfl
@[simp] theorem attackSlot_faultCmd (i : Nat) :
    (s.attackSlot i).faultCmd = s.faultCmd := rfl
@[simp] theorem attackSlot_inbox (i : Nat) :
    (s.attackSlot i).inbox = s.inbox := rfl
@[simp] theorem attackSlot_responses (i : Nat) :
    (s.attackSlot i).responses = s.responses := rfl

/-! Fields after the hardware reset. -/

@[simp] theorem hardwareReset_cfg :
    s.hardwareReset.cfg = s.cfg := rfl
@[simp] theorem hardwareReset_epVoice :
    s.hardwareReset.epVoice = .reset := rfl
@[simp] theorem hardwareReset_epFilter :
    s.hardwareReset.epFilter = .reset := rfl
@[simp] theorem hardwareReset_env :
    s.hardwareReset.env = List.replicate (s.cfg.maxVoice + 1) .reset := rfl
@[simp] theorem hardwareReset_osc :
    s.hardwareReset.osc = List.replicate s.cfg.maxVoice .reset := rfl
@[simp] theorem hardwareReset_wave :
    s.hardwareReset.wave = .saw := rfl
@[simp] theorem hardwareReset_modRatio :
    s.hardwareReset.modRatio = 0 := rfl
@[simp] theorem hardwareReset_pulseWidth :
    s.hardwareReset.pulseWidth = 0 := rfl
@[simp] theorem hardwareReset_status :
    s.hardwareReset.status = 0 := rfl
@[simp] theorem hardwareReset_faultCmd :
    s.hardwareReset.faultCmd = 0 := rfl
@[simp] theorem hardwareReset_inbox :
    s.hardwareReset.inbox = s.inbox := rfl
@[simp] theorem hardwareReset_responses :
    s.hardwareReset.responses = s.responses := rfl

/-! Fields after the host presenting inputs. -/

@[simp] theorem present_cfg (xs : List HostInput) :
    (s.present xs).cfg = s.cfg := rfl
@[simp] theorem present_epVoice (xs : List HostInput) :
    (s.present xs).epVoice = s.epVoice := rfl
@[simp] theorem present_epFilter (xs : List HostInput) :
    (s.present xs).epFilter = s.epFilter := rfl
@[simp] theorem present_env (xs : List HostInput) :
    (s.present xs).env = s.env := rfl
@[simp] theorem present_osc (xs : List HostInput) :
    (s.present xs).osc = s.osc := rfl
@[simp] theorem present_wave (xs : List HostInput) :
    (s.present xs).wave = s.wave := rfl
@[simp] theorem present_modRatio (xs : List HostInput) :
    (s.present xs).modRatio = s.modRatio := rfl
@[simp] theorem present_pulseWidth (xs : List HostInput) :
    (s.present xs).pulseWidth = s.pulseWidth := rfl
@[simp] theorem present_status (xs : List HostInput) :
    (s.present xs).status = s.status := rfl
@[simp] theorem present_faultCmd (xs : List HostInput) :
    (s.present xs).faultCmd = s.faultCmd := rfl
@[simp] theorem present_inbox (xs : List HostInput) :
    (s.present xs).inbox = s.inbox ++ xs := rfl
@[simp] theorem present_responses (xs : List HostInput) :
    (s.present xs).responses = s.responses := rfl

/-! Fields after the host presenting a command first. -/

@[simp] theorem presentFirst_cfg (c : Command) :
    (s.presentFirst c).cfg = s.cfg := rfl
@[simp] theorem presentFirst_epVoice (c : Command) :
    (s.presentFirst c).epVoice = s.epVoice := rfl
@[simp] theorem presentFirst_epFilter (c : Command) :
    (s.presentFirst c).epFilter = s.epFilter := rfl
@[simp] theorem presentFirst_env (c : Command) :
    (s.presentFirst c).env = s.env := rfl
@[simp] theorem presentFirst_osc (c : Command) :
    (s.presentFirst c).osc = s.osc := rfl
@[simp] theorem presentFirst_wave (c : Command) :
    (s.presentFirst c).wave = s.wave := rfl
@[simp] theorem presentFirst_modRatio (c : Command) :
    (s.presentFirst c).modRatio = s.modRatio := rfl
@[simp] theorem presentFirst_pulseWidth (c : Command) :
    (s.presentFirst c).pulseWidth = s.pulseWidth := rfl
@[simp] theorem presentFirst_status (c : Command) :
    (s.presentFirst c).status = s.status := rfl
@[simp] theorem presentFirst_faultCmd (c : Command) :
    (s.presentFirst c).faultCmd = s.faultCmd := rfl
@[simp] theorem presentFirst_inbox (c : Command) :
    (s.presentFirst c).inbox = .command c :: s.inbox := rfl
@[simp] theorem presentFirst_responses (c : Command) :
    (s.presentFirst c).responses = s.responses := rfl

/-! Fields after `EP[c] <- p`. -/

@[simp] theorem setEp_cfg (c : ParamClass) (p : EnvParams) :
    (s.setEp c p).cfg = s.cfg := by cases c <;> rfl
@[simp] theorem setEp_env (c : ParamClass) (p : EnvParams) :
    (s.setEp c p).env = s.env := by cases c <;> rfl
@[simp] theorem setEp_osc (c : ParamClass) (p : EnvParams) :
    (s.setEp c p).osc = s.osc := by cases c <;> rfl
@[simp] theorem setEp_wave (c : ParamClass) (p : EnvParams) :
    (s.setEp c p).wave = s.wave := by cases c <;> rfl
@[simp] theorem setEp_modRatio (c : ParamClass) (p : EnvParams) :
    (s.setEp c p).modRatio = s.modRatio := by cases c <;> rfl
@[simp] theorem setEp_pulseWidth (c : ParamClass) (p : EnvParams) :
    (s.setEp c p).pulseWidth = s.pulseWidth := by cases c <;> rfl
@[simp] theorem setEp_status (c : ParamClass) (p : EnvParams) :
    (s.setEp c p).status = s.status := by cases c <;> rfl
@[simp] theorem setEp_faultCmd (c : ParamClass) (p : EnvParams) :
    (s.setEp c p).faultCmd = s.faultCmd := by cases c <;> rfl
@[simp] theorem setEp_inbox (c : ParamClass) (p : EnvParams) :
    (s.setEp c p).inbox = s.inbox := by cases c <;> rfl
@[simp] theorem setEp_responses (c : ParamClass) (p : EnvParams) :
    (s.setEp c p).responses = s.responses := by cases c <;> rfl
@[simp] theorem setEp_epVoice (p : EnvParams) : (s.setEp .voice p).epVoice = p := rfl
@[simp] theorem setEp_voice_epFilter (p : EnvParams) : (s.setEp .voice p).epFilter = s.epFilter := rfl
@[simp] theorem setEp_epFilter (p : EnvParams) : (s.setEp .filter p).epFilter = p := rfl
@[simp] theorem setEp_filter_epVoice (p : EnvParams) : (s.setEp .filter p).epVoice = s.epVoice := rfl

/-! Fields after the recording of a fault (R172). -/

@[simp] theorem recordFault_cfg (k : FaultKind) (w : Word) :
    (s.recordFault k w).cfg = s.cfg := by
  unfold State.recordFault; split <;> rfl
@[simp] theorem recordFault_epVoice (k : FaultKind) (w : Word) :
    (s.recordFault k w).epVoice = s.epVoice := by
  unfold State.recordFault; split <;> rfl
@[simp] theorem recordFault_epFilter (k : FaultKind) (w : Word) :
    (s.recordFault k w).epFilter = s.epFilter := by
  unfold State.recordFault; split <;> rfl
@[simp] theorem recordFault_env (k : FaultKind) (w : Word) :
    (s.recordFault k w).env = s.env := by
  unfold State.recordFault; split <;> rfl
@[simp] theorem recordFault_osc (k : FaultKind) (w : Word) :
    (s.recordFault k w).osc = s.osc := by
  unfold State.recordFault; split <;> rfl
@[simp] theorem recordFault_wave (k : FaultKind) (w : Word) :
    (s.recordFault k w).wave = s.wave := by
  unfold State.recordFault; split <;> rfl
@[simp] theorem recordFault_modRatio (k : FaultKind) (w : Word) :
    (s.recordFault k w).modRatio = s.modRatio := by
  unfold State.recordFault; split <;> rfl
@[simp] theorem recordFault_pulseWidth (k : FaultKind) (w : Word) :
    (s.recordFault k w).pulseWidth = s.pulseWidth := by
  unfold State.recordFault; split <;> rfl
@[simp] theorem recordFault_inbox (k : FaultKind) (w : Word) :
    (s.recordFault k w).inbox = s.inbox := by
  unfold State.recordFault; split <;> rfl
@[simp] theorem recordFault_status (k : FaultKind) (w : Word) :
    (s.recordFault k w).status = (s.readStatus ||| k.statusBit) &&& statusMask := rfl
@[simp] theorem recordFault_faultCmd (k : FaultKind) (w : Word) :
    (s.recordFault k w).faultCmd = if s.readStatus = 0 then w else s.faultCmd := by
  unfold State.recordFault; split <;> rfl
@[simp] theorem recordFault_responses (k : FaultKind) (w : Word) :
    (s.recordFault k w).responses = 0 :: s.responses := by
  unfold State.recordFault; split <;> rfl

/-! The reset state, field by field (R52). -/

@[simp] theorem resetWith_cfg (c : Config) : (State.resetWith c).cfg = c := rfl
@[simp] theorem resetWith_epVoice (c : Config) : (State.resetWith c).epVoice = .reset := rfl
@[simp] theorem resetWith_epFilter (c : Config) : (State.resetWith c).epFilter = .reset := rfl
@[simp] theorem resetWith_env (c : Config) : (State.resetWith c).env = List.replicate (c.maxVoice + 1) .reset := rfl
@[simp] theorem resetWith_osc (c : Config) : (State.resetWith c).osc = List.replicate c.maxVoice .reset := rfl
@[simp] theorem resetWith_wave (c : Config) : (State.resetWith c).wave = .saw := rfl
@[simp] theorem resetWith_modRatio (c : Config) : (State.resetWith c).modRatio = 0 := rfl
@[simp] theorem resetWith_pulseWidth (c : Config) : (State.resetWith c).pulseWidth = 0 := rfl
@[simp] theorem resetWith_status (c : Config) : (State.resetWith c).status = 0 := rfl
@[simp] theorem resetWith_faultCmd (c : Config) : (State.resetWith c).faultCmd = 0 := rfl
@[simp] theorem resetWith_inbox (c : Config) : (State.resetWith c).inbox = [] := rfl
@[simp] theorem resetWith_responses (c : Config) : (State.resetWith c).responses = [] := rfl

end Sys2Proof.Machine
end

