-- ==== Sys2Proof/Laws/Ops.lean ====
section
/-! SUPPORT. For each shared operation, once, what it can do. -/

namespace Sys2Proof.Machine

/-! The slot files and the parameter sets. -/

@[simp] theorem ep_voice (s : State) : s.ep .voice = s.epVoice := rfl
@[simp] theorem ep_filter (s : State) : s.ep .filter = s.epFilter := rfl

theorem ep_setEp (s : State) (c d : ParamClass) (p : EnvParams) :
    (s.setEp c p).ep d = if d = c then p else s.ep d := by
  cases c <;> cases d <;> rfl

theorem envAt_eq_of_getElem? {s : State} {i : Nat} {e : EnvSlot} (h : s.env[i]? = some e) : s.envAt i = e := by
  simp [State.envAt, List.getD, h]

theorem env_getElem? {s : State} {i : Nat} (h : i < s.env.length) : s.env[i]? = some (s.envAt i) := by
  simp [State.envAt, List.getD, h]

theorem osc_getElem? {s : State} {i : Nat} (h : i < s.osc.length) : s.osc[i]? = some (s.oscAt i) := by
  simp [State.oscAt, List.getD, h]

theorem envAt_mem {s : State} {i : Nat} (h : i < s.env.length) : s.envAt i ∈ s.env :=
  List.mem_of_getElem? (env_getElem? h)

theorem oscAt_mem {s : State} {i : Nat} (h : i < s.osc.length) : s.oscAt i ∈ s.osc :=
  List.mem_of_getElem? (osc_getElem? h)

/-- A read of an entry just written gives what was written. -/
theorem envAt_setEnvAt_self {s : State} {i : Nat} (h : i < s.env.length) (e : EnvSlot) :
    (s.setEnvAt i e).envAt i = e := by
  simp [State.envAt, List.getD, h]

/-- A write of an entry leaves every other entry alone. -/
theorem envAt_setEnvAt_ne {s : State} {i j : Nat} (h : j ≠ i) (e : EnvSlot) :
    (s.setEnvAt i e).envAt j = s.envAt j := by
  simp [State.envAt, List.getD, List.getElem?_set_ne (Ne.symm h)]

theorem oscAt_setOscAt_self {s : State} {i : Nat} (h : i < s.osc.length) (o : OscSlot) :
    (s.setOscAt i o).oscAt i = o := by
  simp [State.oscAt, List.getD, h]

theorem oscAt_setOscAt_ne {s : State} {i j : Nat} (h : j ≠ i) (o : OscSlot) :
    (s.setOscAt i o).oscAt j = s.oscAt j := by
  simp [State.oscAt, List.getD, List.getElem?_set_ne (Ne.symm h)]

/-! The guards and the write-backs. -/

theorem inEnvRange_of_le {i : Instr} {slot : BitVec 8} {s : State} (h : slot.toNat ≤ s.cfg.maxVoice)
    (r : Result) : inEnvRange i slot s r = r := if_pos h

theorem inEnvRange_of_lt {i : Instr} {slot : BitVec 8} {s : State} (h : s.cfg.maxVoice < slot.toNat)
    (r : Result) : inEnvRange i slot s r = .next (s.recordFault .slot (encode i).cmd) :=
  if_neg (Nat.not_le.mpr h)

theorem inOscRange_of_lt {i : Instr} {slot : BitVec 8} {s : State} (h : slot.toNat < s.cfg.maxVoice)
    (r : Result) : inOscRange i slot s r = r := if_pos h

theorem inOscRange_of_le {i : Instr} {slot : BitVec 8} {s : State} (h : s.cfg.maxVoice ≤ slot.toNat)
    (r : Result) : inOscRange i slot s r = .next (s.recordFault .slot (encode i).cmd) :=
  if_neg (Nat.not_lt.mpr h)

/-- If a write-back answers a next state, the step computed an entry and the state is the write-back of it. -/
theorem finishEnv_next {s t : State} {i : Nat} {r : Except Fault EnvSlot} (h : s.finishEnv i r = .next t) :
    ∃ e, r = .ok e ∧ t = (s.setEnvAt i e).respond (amplitudeResponse e.output) := by
  cases r with
  | ok e => exact ⟨e, rfl, (Host.Outcome.next.inj h).symm⟩
  | error f => exact nomatch h

theorem finishOsc_next {s t : State} {i : Nat} {r : Except Fault OscSlot} (h : s.finishOsc i r = .next t) :
    ∃ o, r = .ok o ∧ t = (s.setOscAt i o).respond (sampleResponse o.sample) := by
  cases r with
  | ok o => exact ⟨o, rfl, (Host.Outcome.next.inj h).symm⟩
  | error f => exact nomatch h

/-! The fault registers. -/

theorem readStatus_writeStatus (s : State) (v : Word) : (s.writeStatus v).readStatus = v &&& statusMask := by
  simp [State.readStatus, BitVec.and_assoc]

theorem statusBit_masked (k : FaultKind) : k.statusBit &&& statusMask = k.statusBit := by
  cases k <;> rfl

/-- What a reader of `STATUS` sees after a fault is recorded (R172). -/
theorem readStatus_recordFault (s : State) (k : FaultKind) (w : Word) :
    (s.recordFault k w).readStatus = s.readStatus ||| k.statusBit := by
  unfold State.readStatus
  rw [recordFault_status, BitVec.and_assoc, BitVec.and_self]
  ext i hi
  have := congrArg (fun v => v[i]) (statusBit_masked k)
  simp only [State.readStatus, BitVec.getElem_and, BitVec.getElem_or] at this ⊢
  cases h : statusMask[i] <;> simp_all

/-! The tables: an index inside the table answers the table's value (R62). -/

theorem tableAt_of_lt {α : Type} {name : Table} {v : Vector α 4096} {i : Nat} (h : i < 4096) :
    tableAt name v i = .ok v[i] := by
  simp [tableAt, h]

theorem tableAt_ok {α : Type} {name : Table} {v : Vector α 4096} {i : Nat} {x : α}
    (h : tableAt name v i = .ok x) : v[i]? = some x := by
  unfold tableAt at h
  split at h
  · rename_i y hy; rw [hy, Except.ok.inj h]
  · exact nomatch h

theorem envRead_of_lt {c : Config} {i : Nat} (h : i < 4096) : envRead c i = .ok c.envTable[i].val := by
  simp [envRead, tableAt_of_lt h, Except.map]

theorem decRead_of_lt {c : Config} {i : Nat} (h : i < 4096) :
    decRead c i = .ok (c.envTable[4095 - i]'(by omega)).val := by
  simp [decRead, h, envRead_of_lt (show 4095 - i < 4096 by omega)]

theorem sineRead_of_lt {c : Config} {i : Nat} (h : i < 4096) : sineRead c i = .ok c.sineTable[i] :=
  tableAt_of_lt h

/-! The arithmetic of the operands. -/

theorem envRange_eq : Config.envRange = 4096 := rfl

theorem vtim_eq : Config.vtim = 4194304 := rfl

theorem range_eq (w : Wave) : Config.range w = 4096 := by cases w <;> rfl

theorem maxVoice_le (c : Config) : c.maxVoice ≤ 255 := by unfold Config.maxVoice; omega

theorem one_le_maxVoice (c : Config) : 1 ≤ c.maxVoice := by unfold Config.maxVoice; omega

/-- A phase advance is the sum modulo the phase range (R151, R154). -/
theorem toNat_advancePhase (w : Wave) (phase step : Word) :
    (advancePhase (Config.range w) phase step).toNat = (phase.toNat + step.toNat) % 4194304 := by
  unfold advancePhase truncU
  rw [range_eq, show (4096 <<< Config.precisionBits) - 1 = 2 ^ 22 - 1 from rfl, Nat.and_two_pow_sub_one_eq_mod,
    BitVec.toNat_ofNat]
  omega

theorem phaseIndex_eq (phase : Word) : phaseIndex phase = phase.toNat / 1024 := by
  rw [phaseIndex, Nat.shiftRight_eq_div_pow]
  rfl

/-- `trunc_32` changes nothing in ComputeStep on the domains of R100. -/
theorem toNat_computeStep {raw dur : Nat} (hr : 5 ≤ raw) :
    (computeStep raw dur).toNat = (4096 * 4096 / raw * 1024) / dur := by
  have h1 : 4096 * 4096 / raw ≤ 4096 * 4096 / 5 := Nat.div_le_div_left hr (by decide)
  have h2 : (4096 * 4096 / raw * 1024) / dur ≤ 4096 * 4096 / raw * 1024 := Nat.div_le_self _ _
  simp only [computeStep, truncU, BitVec.toNat_ofNat, Nat.shiftLeft_eq]
  change (4096 * 4096 / raw * 1024) / dur % 2 ^ 32 = _
  exact Nat.mod_eq_of_lt (by omega)

end Sys2Proof.Machine
end

