-- ==== Sys2Proof/Laws/PerInstr.lean ====
section
/-! SUPPORT. One fact of the encoding said of every instruction: the word of each command lies in its own
row of the opcode map (spec/30_encoding.md R83), at every value of its operands. -/

namespace Sys2Proof.Laws

/-- The row an instruction belongs to: its mnemonic, `match` and `mask` of R83. -/
def rowBitsOf : Instr → String × Word × Word
  | .init _ => ("INIT", 0x10000000#32, 0xFFFFFFFE#32)
  | .gateOn _ => ("GATEON", 0x20000000#32, 0xF00FFFFF#32)
  | .gateOff _ => ("GATEOFF", 0x30000000#32, 0xF00FFFFF#32)
  | .setAtk _ _ => ("SETATK", 0x40000000#32, 0xFFF7F000#32)
  | .setDec _ _ => ("SETDEC", 0x50000000#32, 0xFFF7F000#32)
  | .setRel _ _ => ("SETREL", 0x60000000#32, 0xFFF7F000#32)
  | .setSus _ _ => ("SETSUS", 0x70000000#32, 0xFFF7F000#32)
  | .selWave _ => ("SELWAVE", 0x80000000#32, 0xFFFFFFFC#32)
  | .setFreq _ _ _ => ("SETFREQ", 0x90000000#32, 0xF00F0000#32)
  | .setFmFreq _ _ _ => ("SETFMFREQ", 0xA0000000#32, 0xF00F0000#32)
  | .setModRatio _ => ("SETMODRATIO", 0xB0000000#32, 0xFFFF0000#32)
  | .setPw _ => ("SETPW", 0xC0000000#32, 0xFFFFF000#32)
  | .envStep _ _ => ("ENVSTEP", 0xD0000000#32, 0xF007FFFF#32)
  | .oscStep _ => ("OSCSTEP", 0xE0000000#32, 0xF00FFFFF#32)
  | .oscStepFm _ => ("OSCSTEPFM", 0xF0000000#32, 0xF00FFFFF#32)

/-- The encoded word of the instruction satisfies the `match` and `mask` of the instruction's row. -/
def EncodedInRow.Statement (i : Instr) : Prop :=
  (encode i).cmd &&& (rowBitsOf i).2.2 = (rowBitsOf i).2.1

/-- A field word meets a row when each of its 32 bits does. -/
theorem cmdWord_and_eq {op : BitVec 4} {slot : BitVec 8} {cls : BitVec 1} {imm : BitVec 16} {mask m : Word}
    (h : ∀ i < 32, ((if i < 16 then imm.getLsbD i else if i < 19 then false else if i < 20 then cls.getLsbD (i - 19)
      else if i < 28 then slot.getLsbD (i - 20) else op.getLsbD (i - 28)) && mask.getLsbD i) = m.getLsbD i) :
    cmdWord op slot cls imm &&& mask = m := by
  apply BitVec.eq_of_getLsbD_eq
  intro i hi
  rw [BitVec.getLsbD_and, getLsbD_cmdWord]
  exact h i hi

theorem EncodedInRow.init (dbg : Bool) : EncodedInRow.Statement (.init dbg) := by
  cases dbg <;> rfl

theorem EncodedInRow.gateOn (slot : BitVec 8) : EncodedInRow.Statement (.gateOn slot) :=
  cmdWord_and_eq fun i hi => by interval_cases i <;> simp [rowBitsOf]

theorem EncodedInRow.gateOff (slot : BitVec 8) : EncodedInRow.Statement (.gateOff slot) :=
  cmdWord_and_eq fun i hi => by interval_cases i <;> simp [rowBitsOf]

theorem EncodedInRow.setAtk (cls : ParamClass) (raw : BitVec 12) : EncodedInRow.Statement (.setAtk cls raw) :=
  cmdWord_and_eq fun i hi => by interval_cases i <;> simp [rowBitsOf]

theorem EncodedInRow.setDec (cls : ParamClass) (raw : BitVec 12) : EncodedInRow.Statement (.setDec cls raw) :=
  cmdWord_and_eq fun i hi => by interval_cases i <;> simp [rowBitsOf]

theorem EncodedInRow.setRel (cls : ParamClass) (raw : BitVec 12) : EncodedInRow.Statement (.setRel cls raw) :=
  cmdWord_and_eq fun i hi => by interval_cases i <;> simp [rowBitsOf]

theorem EncodedInRow.setSus (cls : ParamClass) (level : BitVec 12) : EncodedInRow.Statement (.setSus cls level) :=
  cmdWord_and_eq fun i hi => by interval_cases i <;> simp [rowBitsOf]

theorem EncodedInRow.selWave (kind : Wave) : EncodedInRow.Statement (.selWave kind) := by
  cases kind <;> rfl

theorem EncodedInRow.setFreq (slot : BitVec 8) (pitch : BitVec 16) (ts : Word) :
    EncodedInRow.Statement (.setFreq slot pitch ts) :=
  cmdWord_and_eq fun i hi => by interval_cases i <;> simp [rowBitsOf]

theorem EncodedInRow.setFmFreq (slot : BitVec 8) (pitch : BitVec 16) (ts : Word) :
    EncodedInRow.Statement (.setFmFreq slot pitch ts) :=
  cmdWord_and_eq fun i hi => by interval_cases i <;> simp [rowBitsOf]

theorem EncodedInRow.setModRatio (ratio : BitVec 16) : EncodedInRow.Statement (.setModRatio ratio) :=
  cmdWord_and_eq fun i hi => by interval_cases i <;> simp [rowBitsOf]

theorem EncodedInRow.setPw (width : BitVec 12) : EncodedInRow.Statement (.setPw width) :=
  cmdWord_and_eq fun i hi => by interval_cases i <;> simp [rowBitsOf]

theorem EncodedInRow.envStep (slot : BitVec 8) (cls : ParamClass) : EncodedInRow.Statement (.envStep slot cls) :=
  cmdWord_and_eq fun i hi => by interval_cases i <;> simp [rowBitsOf]

theorem EncodedInRow.oscStep (slot : BitVec 8) : EncodedInRow.Statement (.oscStep slot) :=
  cmdWord_and_eq fun i hi => by interval_cases i <;> simp [rowBitsOf]

theorem EncodedInRow.oscStepFm (slot : BitVec 8) : EncodedInRow.Statement (.oscStepFm slot) :=
  cmdWord_and_eq fun i hi => by interval_cases i <;> simp [rowBitsOf]

end Sys2Proof.Laws
end

