-- ==== Sys2Proof/Tests/Slice0.lean ====
section
/-! SUPPORT. Tests of the model against the vectors of spec/95_test_vectors.md (V below) and the encoding
examples of R98, the refusals of WellFormed, and for every obligation with hypotheses a witness that
meets them: `witness_<obligation>`. Each expected result is the spec's, transcribed. -/

open Sys2Proof Sys2Proof.Machine

namespace Sys2Proof.Tests

-- each theorem is checked before the next: elaborating them side by side starts a thread for each
set_option Elab.async false

/-! The example configuration of V section 0. -/

theorem size_tableList {α : Type} (f : Nat → α) : ((List.range' 0 4096).map f).toArray.size = 4096 := by
  rw [List.size_toArray, List.length_map, List.length_range']

/-- A table in closed form. -/
def tableOf {α : Type} (f : Nat → α) : Vector α 4096 := ⟨((List.range' 0 4096).map f).toArray, size_tableList f⟩

/-- The configuration of V section 0: MAXVOICE 4, the durations, the stand-in tables. -/
def exampleConfig : Config where
  maxVoiceLessOne := 3
  durDecayLessOne := 49999
  durReleaseLessOne := 24999
  durFmEnvLessOne := 24999
  envTable := tableOf fun i => Fin.ofNat 4097 i
  sawTable := tableOf fun i => BitVec.ofInt 16 ((i : Int) - 2048)
  sineTable := tableOf fun i => BitVec.ofInt 16 (2047 - (i : Int))
  triTable := tableOf fun i => if i < 2048 then BitVec.ofInt 16 (2 * (i : Int) - 2048) else BitVec.ofInt 16 (6142 - 2 * (i : Int))
  fmStartDepth := 2000
  fmEndDepth := 200
  fmEnvRawLessFive := 2043
  fullScale := 2047

/-- The example block after reset. -/
def fresh : State := State.resetWith exampleConfig

/-- The start states of V section 2.4: `ENV[0]` and `EP[VOICE]` as given, all else as after reset. -/
def envState (p : EnvParams) (e : EnvSlot) : State := { fresh with epVoice := p, env := e :: List.replicate 4 .reset }

/-- `EP[VOICE]` of V section 2.4. -/
def voiceParams : EnvParams := ⟨68719, 68719, 137438, 2048⟩

/-- `ENV[0]` as given, under the parameters of V section 2.4. -/
def env0 (e : EnvSlot) : State := envState voiceParams e

/-- `OSC[0]` and `WAVE`, `PULSE_WIDTH` as given, all else as after reset. -/
def osc0 (w : Wave) (pw : BitVec 12) (o : OscSlot) : State :=
  { fresh with wave := w, pulseWidth := pw, osc := o :: List.replicate 3 .reset }

/-- A part of the next state, if the outcome is one. -/
def part {α : Type} (r : Result) (f : State → α) : Option α :=
  match r with
  | .next s => some (f s)
  | .fault _ => none
  | .refused _ => none

/-- The commands' words run from the state given (all `ARG` 0). -/
def words (ws : List Word) (s : State) : Result := runCommands (ws.map fun w => ⟨w, 0⟩) s

/-! WellFormed refuses a slot outside its range, and nothing else (R83, R87). -/

theorem test_wellFormed_refuses_envelope_slot : (Instr.gateOn 5).wellFormed 4 = false := by decide
theorem test_wellFormed_refuses_envelope_step_slot : (Instr.envStep 5 .voice).wellFormed 4 = false := by decide
theorem test_wellFormed_refuses_oscillator_slot : (Instr.setFreq 4 440 0).wellFormed 4 = false := by decide
theorem test_wellFormed_refuses_fm_step_slot : (Instr.oscStepFm 4).wellFormed 4 = false := by decide
theorem test_wellFormed_takes_filter_slot : (Instr.gateOff 4).wellFormed 4 = true := by decide
theorem test_wellFormed_takes_last_voice : (Instr.oscStep 3).wellFormed 4 = true := by decide

/-! Decoding: one word per constructor, its fields OP, SLOT, CLS, RSV, IMM written out from R81 to R83; the
words are those of R98 and V section 2.1. -/

theorem test_decode_init : decode ⟨0b0001_00000000_0_000_0000000000000001, 0⟩ = .ok (.init true) := by decide
theorem test_decode_gateOn : decode ⟨0b0010_00000011_0_000_0000000000000000, 0⟩ = .ok (.gateOn 3) := by decide
theorem test_decode_gateOff : decode ⟨0b0011_00000100_0_000_0000000000000000, 0⟩ = .ok (.gateOff 4) := by decide
theorem test_decode_setAtk : decode ⟨0b0100_00000000_1_000_0000000000000101, 0⟩ = .ok (.setAtk .filter 5) := by decide
theorem test_decode_setDec : decode ⟨0b0101_00000000_0_000_0000111111111111, 0⟩ = .ok (.setDec .voice 4095) := by decide
theorem test_decode_setRel : decode ⟨0b0110_00000000_0_000_0000100000000000, 0⟩ = .ok (.setRel .voice 2048) := by decide
theorem test_decode_setSus : decode ⟨0b0111_00000000_1_000_0000111111111111, 0⟩ = .ok (.setSus .filter 4095) := by decide
theorem test_decode_selWave : decode ⟨0b1000_00000000_0_000_0000000000000010, 0⟩ = .ok (.selWave .triangle) := by decide
theorem test_decode_setFreq :
    decode ⟨0b1001_00000000_0_000_0000000110111000, 0x3E8⟩ = .ok (.setFreq 0 440 1000) := by decide
theorem test_decode_setFmFreq :
    decode ⟨0b1010_00000001_0_000_0000000110111000, 7⟩ = .ok (.setFmFreq 1 440 7) := by decide
theorem test_decode_setModRatio : decode ⟨0b1011_00000000_0_000_0000001000000000, 0⟩ = .ok (.setModRatio 512) := by decide
theorem test_decode_setPw : decode ⟨0b1100_00000000_0_000_0000010000000000, 0⟩ = .ok (.setPw 1024) := by decide
theorem test_decode_envStep : decode ⟨0b1101_00000100_1_000_0000000000000000, 0⟩ = .ok (.envStep 4 .filter) := by decide
theorem test_decode_oscStep : decode ⟨0b1110_00000010_0_000_0000000000000000, 0⟩ = .ok (.oscStep 2) := by decide
theorem test_decode_oscStepFm : decode ⟨0b1111_00000001_0_000_0000000000000000, 0⟩ = .ok (.oscStepFm 1) := by decide
theorem test_decode_reserved_opcode : decode ⟨0x0FFFFFFF, 0⟩ = .error .reservedOpcode := by decide
theorem test_decode_reserved_bits : decode ⟨0xD0410000, 0⟩ = .error (.reservedBits "ENVSTEP") := by decide
theorem test_decodeTableWord_with_arg : decodeTableWord 64 0x00000007A01001B8 = some (.setFmFreq 1 440 7) := by decide
theorem test_decodeTableWord_cmd_only : decodeTableWord 32 0xD0480000 = some (.envStep 4 .filter) := by decide

/-! Faults: V section 2.1, and the stickiness example under it. -/

theorem test_fault_slot : part (words [0x20500000] fresh) (fun s => (s.statusOutput, s.responses)) =
    some ((0x4, 0x20500000), [0]) := by decide +kernel
theorem test_fault_rsvd_wins_over_slot : part (words [0xE0480000] fresh) State.statusOutput =
    some (0x2, 0xE0480000) := by decide +kernel
theorem test_fault_sticky_through_init : part (words [0xE0400000, 0x00000000, 0x10000000] fresh) State.statusOutput =
    some (0x5, 0xE0400000) := by decide +kernel

/-! Control commands of the envelope engine: V sections 2.2 and 2.3. -/

theorem test_init : part (words [0x10000001] (env0 ⟨1000, .release, 900, 1200⟩)) (fun s => (s.env, s.epVoice)) =
    some (List.replicate 5 ⟨0, .stop, 0, 0⟩, ⟨0, 0, 0, 0⟩) := by decide +kernel
theorem test_gateOn : part (words [0x20000000] (env0 ⟨0, .sustain, 2048, 0⟩)) (fun s => (s.env[0]?, s.env[4]?)) =
    some (some ⟨0, .attack, 2048, 0⟩, some ⟨0, .attack, 0, 0⟩) := by decide +kernel
theorem test_gateOn_filter : part (words [0x20400000] fresh) (fun s => (s.env[0]?, s.env[4]?)) =
    some (some ⟨0, .stop, 0, 0⟩, some ⟨0, .attack, 0, 0⟩) := by decide +kernel
theorem test_gateOff : part (words [0x30000000] (env0 ⟨1000, .release, 900, 1200⟩)) (fun s => (s.env[0]?, s.env[4]?)) =
    some (some ⟨0, .release, 900, 900⟩, some ⟨0, .stop, 0, 0⟩) := by decide +kernel
theorem test_setAtk_max : part (words [0x40000FFF] fresh) State.epVoice = some ⟨83, 0, 0, 0⟩ := by decide +kernel
theorem test_setAtk_floor : part (words [0x40080000] fresh) State.epFilter = some ⟨68719, 0, 0, 0⟩ := by decide +kernel
theorem test_setDec : part (words [0x50000005] fresh) State.epVoice = some ⟨0, 68719, 0, 0⟩ := by decide +kernel
theorem test_setRel_filter : part (words [0x60080005] fresh) State.epFilter = some ⟨0, 0, 137438, 0⟩ := by decide +kernel
theorem test_setRel_voice : part (words [0x60000800] fresh) State.epVoice = some ⟨0, 0, 335, 0⟩ := by decide +kernel
theorem test_setSus : part (words [0x70080FFF] fresh) State.epFilter = some ⟨0, 0, 0, 4095⟩ := by decide +kernel

/-! ENVSTEP: vectors D2, R4 of V section 2.4. -/

theorem test_envStep_D2 : part (words [0xD0000000] (env0 ⟨2061570, .decay, 2082, 0⟩)) (fun s => (s.env[0]?, s.responses)) =
    some (some ⟨0, .sustain, 2048, 0⟩, [2048]) := by decide +kernel
theorem test_envStep_R4 : part (words [0xD0000000] (env0 ⟨0, .release, 2, 2⟩)) (fun s => (s.env[0]?, s.responses)) =
    some (some ⟨0, .stopping, 0, 2⟩, [0]) := by decide +kernel

/-! The oscillator engine: V sections 2.5, 2.6, 2.7. -/

theorem test_selWave : part (words [0x80000002] fresh) State.wave = some .triangle := by decide +kernel
theorem test_setFreq : part (runCommands [⟨0x900001B8, 0x3E8⟩] fresh) (fun s => s.osc[0]?) =
    some (some ⟨440, 73819, 0, 0, 0, 0, 0, 0, 0, 0, 1000⟩) := by decide +kernel
theorem test_setFreq_max : part (words [0x9000FFFF] fresh) (fun s => (s.oscAt 0).carrierStep) = some 10994948 := by
  decide +kernel
theorem test_setFmFreq : part (runCommands [⟨0xB0000200, 0⟩, ⟨0xA01001B8, 7⟩] fresh) (fun s => s.osc[1]?) =
    some (some ⟨440, 73819, 0, 147638, 0, 0, 335, 1800, 0, 0, 7⟩) := by decide +kernel
theorem test_setFmFreq_max : part (words [0xB000FFFF, 0xA000FFFF] fresh) (fun s => (s.oscAt 0).modulatorStep) =
    some 2814663738 := by decide +kernel
theorem test_setModRatio : part (words [0xB000FFFF] fresh) State.modRatio = some 65535 := by decide +kernel
theorem test_setPw : part (words [0xC0000FFF] fresh) State.pulseWidth = some 4095 := by decide +kernel
theorem test_oscStep_wrap :
    part (words [0xE0000000] (osc0 .saw 0 ⟨0, 73819, 4194000, 0, 0, 0, 0, 0, 0, 0, 0⟩))
      (fun s => ((s.oscAt 0).carrierPhase, s.responses)) = some (73515, [0xFFFFF847]) := by decide +kernel
theorem test_oscStep_square_last_index :
    part (words [0xE0000000] (osc0 .square 4095 ⟨0, 0, 4095 * 1024, 0, 0, 0, 0, 0, 0, 0, 0⟩)) State.responses =
      some [BitVec.ofInt 32 (-2047)] := by decide +kernel
theorem test_oscStepFm_F1 :
    part (runCommands [⟨0xB0000200, 0⟩, ⟨0xA01001B8, 7⟩, ⟨0xF0100000, 0⟩] fresh)
      (fun s => (s.osc[1]?, s.responses.head?)) =
      some (some ⟨440, 73819, 73819, 147638, 147638, 335, 335, 1800, 1999, 118, 7⟩, some 118) := by decide +kernel
theorem test_oscStepFm_F2 : part (words [0xF0300000] fresh) (fun s => ((s.oscAt 3).currentModVolume, s.responses)) =
    some (200, [1848]) := by decide +kernel
/-- V section 2.7 F6 and F7: the floor shifts and the Euclidean residue (R155). -/
theorem test_fmOffset : fmOffset (BitVec.ofInt 16 (-1000)) 1999 = 3119 ∧ fmOffset (BitVec.ofInt 16 (-1)) 1 = 4095 := by
  decide +kernel
/-- V section 2.7 F5: a negative difference rounds towards minus infinity (R22, R153). -/
theorem test_fmDepth_floor :
    fmDepth { exampleConfig with fmEndDepth := 2000 } 4095 (BitVec.ofInt 32 (-1800)) = 200 := by decide +kernel

/-! The assembler: R95 to R98. -/

theorem test_assemble_example : assemble 4 "SetFreq 0, 0x1b8, 1000 ; tune\n envstep FILTER_SLOT, filter" =
    .ok [⟨0x900001B8, 0x3E8⟩, ⟨0xD0480000, 0⟩] := by decide +kernel
theorem test_assemble_directives : assemble 4 ".equ v, 2\n.rept 2\ntick v, voice\n.endr\n.word 0x20380000, 9" =
    .ok [⟨0xD0200000, 0⟩, ⟨0xE0200000, 0⟩, ⟨0xD0200000, 0⟩, ⟨0xE0200000, 0⟩, ⟨0x20380000, 9⟩] := by decide +kernel
/-- The model's choice of log 11: a line inside a `.rept 0` block must be valid. -/
theorem test_assemble_checks_empty_repeat : assemble 4 ".rept 0\ngateon 256\n.endr" = .error .tooLarge ∧
    assemble 4 ".rept 0\ngateon 5\n.endr" = .ok [] := by decide +kernel
/-- The model's choice of log 11: the name of an `.equ` is any operand text. -/
theorem test_assemble_takes_any_symbol_name : assemble 4 ".equ my tune, 3\ngateon my tune" = .ok [⟨0x20300000, 0⟩] ∧
    assemble 4 ".equ , 3\noscstepfm 1\n.word ,7" = .ok [⟨0xF0100000, 0⟩, ⟨3, 7⟩] := by decide +kernel
theorem test_assemble_refuses_large_operand : assemble 4 "setatk voice, 4096" = .error .tooLarge := by decide +kernel

/-! Witnesses: concrete states and operands that meet the hypotheses of an obligation, for each of its
clauses and at the boundary values of its ranges. -/

theorem witness_EncodeOfDecode : decode ⟨0xA01001B8, 7⟩ = .ok (.setFmFreq 1 440 7) ∧
    decode ⟨0x10000001, 5⟩ = .ok (.init true) := by decide
theorem witness_EveryWordIsOneCommandOrAFault : opField 0x0FFFFFFF = 0 ∧ opField 0x20380000 ≠ 0 ∧
    decode ⟨0x20380000, 0⟩ = .error (.reservedBits "GATEON") ∧ decode ⟨0x20300000, 0⟩ = .ok (.gateOn 3) := by decide
theorem witness_OpcodeRowsAreDisjoint : ∃ r ∈ opcodeRows, ∃ q ∈ opcodeRows,
    0x20300000#32 &&& r.mask = r.matchBits ∧ 0x20300000#32 &&& q.mask = q.matchBits := by
  refine ⟨_, List.mem_cons_of_mem _ List.mem_cons_self, _, List.mem_cons_of_mem _ List.mem_cons_self, ?_⟩
  decide
theorem witness_ArgReadOnlyByFrequencyCommands : opField 0x80000003 ≠ 0x9 ∧ opField 0x80000003 ≠ 0xA ∧
    faultClass exampleConfig.maxVoice 0x900801B8 = some .rsvd ∧ faultClass exampleConfig.maxVoice 0xA0400000 = some .slot ∧
    faultClass exampleConfig.maxVoice 0xA0300000 = none := by decide +kernel
theorem witness_StepRunsTheDecodedCommand :
    (fresh.present [.command ⟨0x20300000, 0⟩, .reset]).inbox = .command ⟨0x20300000, 0⟩ :: [.reset] ∧
      decode ⟨0x20300000, 0⟩ = .ok (.gateOn 3) := ⟨rfl, by decide⟩
theorem witness_StepIdlesWithNothingPresented : fresh.inbox = [] := rfl
theorem witness_ResetSetsEveryRegister :
    ((env0 ⟨0, .sustain, 2048, 0⟩).present [.reset, .reset]).inbox = .reset :: [.reset] := rfl
theorem witness_ResetInputKeepsTheHostsRecord :
    ((env0 ⟨0, .sustain, 2048, 0⟩).present [.reset, .reset]).inbox = .reset :: [.reset] := rfl
theorem witness_RejectedWordRecordsItsFault :
    faultClass exampleConfig.maxVoice 0x0FFFFFFF = some .opcode ∧ faultClass exampleConfig.maxVoice 0xE0480000 = some .rsvd ∧
      faultClass exampleConfig.maxVoice 0x20500000 = some .slot ∧ faultClass exampleConfig.maxVoice 0xE0400000 = some .slot := by
  decide +kernel
theorem witness_AcceptedWordExecutesWithoutFault :
    faultClass exampleConfig.maxVoice 0xD0400000 = none ∧ faultClass exampleConfig.maxVoice 0xE0300000 = none ∧
      faultClass exampleConfig.maxVoice 0x40000FFF = none := by decide +kernel
theorem witness_SlotOutOfRangeRecordsErrSlot : (Instr.gateOn 5).wellFormed exampleConfig.maxVoice = false ∧
    (Instr.oscStep 4).wellFormed exampleConfig.maxVoice = false := by decide +kernel
/-- A state that has recorded a fault, and a command accepted in it. -/
theorem witness_FaultRecordIsSticky : ({ fresh with status := 4, faultCmd := 0xE0400000 } : State).readStatus ≠ 0 ∧
    ∃ t, transact ⟨0, 0⟩ { fresh with status := 4, faultCmd := 0xE0400000 } = .next t := ⟨by decide, _, rfl⟩
theorem witness_OneResponsePerCommand :
    part (transact ⟨0xD0000000, 0⟩ (env0 ⟨0, .sustain, 2048, 0⟩)) State.responses = some [2048] := by decide +kernel
theorem witness_CommandsAreAcceptedInOrder : fresh.inbox = [] := rfl
theorem witness_InitZeroesTheEnvelopeEngine : (env0 ⟨1000, .release, 900, 1200⟩).filesSized := by decide +kernel
/-- The filter slot is the last legal slot. -/
theorem witness_GateOnAttacksSlotAndFilter : (4#8).toNat ≤ fresh.cfg.maxVoice ∧ fresh.env[(4#8).toNat]? = some .reset ∧
    fresh.env[fresh.cfg.maxVoice]? = some .reset := by decide +kernel
theorem witness_GateOffReleasesFromTheCurrentOutput : (0#8).toNat ≤ (env0 ⟨0, .sustain, 2048, 0⟩).cfg.maxVoice ∧
    (env0 ⟨0, .sustain, 2048, 0⟩).env[(0#8).toNat]? = some ⟨0, .sustain, 2048, 0⟩ := by decide +kernel
theorem witness_RatesBelowTheFloorAreClamped : (0#12).toNat ≤ 5 ∧ (5#12).toNat ≤ 5 := by decide
theorem witness_FilterEnvelopeWrittenOnlyByItsCommands : fresh.filesSized ∧ (3#8).toNat ≤ fresh.cfg.maxVoice ∧
    part (exec (.gateOn 3) fresh) (fun t => decide (t.envAt fresh.cfg.filterSlot ≠ fresh.envAt fresh.cfg.filterSlot)) =
      some true := by decide +kernel

/-- What the hypotheses of the ENVSTEP statements ask of slot 0. -/
def envHyps (p : EnvParams) (e : EnvSlot) (m : Mode) : Prop :=
  (0#8).toNat ≤ (envState p e).cfg.maxVoice ∧ (envState p e).env[(0#8).toNat]? = some e ∧ e.mode = m

theorem envHyps_of_mode (p : EnvParams) (e : EnvSlot) (m : Mode) (h : e.mode = m) : envHyps p e m :=
  ⟨Nat.zero_le _, rfl, h⟩

/-- Vectors A4 and A5: the advanced phase just below the bound, and at it. -/
theorem witness_EnvStepInAttack :
    (envHyps ⟨1, 0, 0, 0⟩ ⟨4194302, .attack, 0, 0⟩ .attack ∧ 4194302 + 1 < Config.vtim) ∧
    (envHyps ⟨1, 0, 0, 0⟩ ⟨4194303, .attack, 0, 0⟩ .attack ∧ Config.vtim ≤ 4194303 + 1) :=
  ⟨⟨envHyps_of_mode _ _ _ rfl, by decide⟩, envHyps_of_mode _ _ _ rfl, by decide⟩

/-- The bound at equality, and below it the descending read at the sustain level and one above it. -/
theorem witness_EnvStepInDecay :
    (envHyps ⟨0, 1, 0, 2048⟩ ⟨4194303, .decay, 4093, 0⟩ .decay ∧ Config.vtim ≤ 4194303 + 1) ∧
    (envHyps ⟨0, 0, 0, 2048⟩ ⟨2047 * 1024, .decay, 4093, 0⟩ .decay ∧ 2047 * 1024 + 0 < Config.vtim ∧
      exampleConfig.envTable[4095 - (2047 * 1024 + 0) / 1024]? = some 2048) ∧
    (envHyps ⟨0, 0, 0, 2048⟩ ⟨2046 * 1024, .decay, 4093, 0⟩ .decay ∧ 2046 * 1024 + 0 < Config.vtim ∧
      exampleConfig.envTable[4095 - (2046 * 1024 + 0) / 1024]? = some 2049) :=
  ⟨⟨envHyps_of_mode _ _ _ rfl, by decide⟩, ⟨envHyps_of_mode _ _ _ rfl, by decide, by decide +kernel⟩,
    envHyps_of_mode _ _ _ rfl, by decide, by decide +kernel⟩

theorem witness_EnvStepInSustain : envHyps voiceParams ⟨0, .sustain, 2048, 0⟩ .sustain := envHyps_of_mode _ _ _ rfl

/-- The bound at equality, and below it the scaled value 1 (vector R4) and 2 (vector R5). -/
theorem witness_EnvStepInRelease :
    (envHyps ⟨0, 0, 1, 0⟩ ⟨4194303, .release, 34, 2048⟩ .release ∧ Config.vtim ≤ 4194303 + 1) ∧
    (envHyps ⟨0, 0, 137438, 0⟩ ⟨0, .release, 2, 2⟩ .release ∧ 0 + 137438 < Config.vtim ∧
      exampleConfig.envTable[4095 - (0 + 137438) / 1024]? = some 3961 ∧ 3961 * 2 / 4096 ≤ 1) ∧
    (envHyps ⟨0, 0, 68719, 0⟩ ⟨0, .release, 3, 3⟩ .release ∧ 0 + 68719 < Config.vtim ∧
      exampleConfig.envTable[4095 - (0 + 68719) / 1024]? = some 4028 ∧ 1 < 4028 * 3 / 4096) :=
  ⟨⟨envHyps_of_mode _ _ _ rfl, by decide⟩, ⟨envHyps_of_mode _ _ _ rfl, by decide, by decide +kernel, by decide⟩,
    envHyps_of_mode _ _ _ rfl, by decide, by decide +kernel, by decide⟩

theorem witness_EnvStepIsIdempotentWhenStopped :
    (envHyps voiceParams ⟨0, .stop, 0, 0⟩ .stop ∧ (⟨0, .stop, 0, 0⟩ : EnvSlot).sound) ∧
    (envHyps voiceParams ⟨0, .stopping, 0, 2048⟩ .stopping ∧ (⟨0, .stopping, 0, 2048⟩ : EnvSlot).sound) :=
  ⟨⟨envHyps_of_mode _ _ _ rfl, by decide⟩, envHyps_of_mode _ _ _ rfl, by decide⟩

/-- A mode changes along an arc of each column of R129. -/
theorem witness_ModesChangeOnlyAlongTheArcs :
    part (exec (.envStep 0 .voice) (env0 ⟨4191859, .attack, 4093, 0⟩)) (fun t => (t.envAt 0).mode) = some .decay ∧
    decode ⟨0x20380000, 0⟩ = .error (.reservedBits "GATEON") ∧ (∃ t, acceptInput .reset fresh = .next t) :=
  ⟨by decide +kernel, by decide, _, rfl⟩
theorem witness_AttackCrossesAtTheCeilingCount : envHyps voiceParams ⟨0, .attack, 0, 0⟩ .attack ∧
    1 ≤ ((env0 ⟨0, .attack, 0, 0⟩).ep .voice).attackStep.toNat ∧
    61 * ((env0 ⟨0, .attack, 0, 0⟩).ep .voice).attackStep.toNat < Config.vtim :=
  ⟨envHyps_of_mode _ _ _ rfl, by decide⟩
theorem witness_ZeroStepStallsTheAttack : envHyps ⟨0, 0, 0, 0⟩ ⟨4194303, .attack, 0, 0⟩ .attack ∧
    (⟨4194303, .attack, 0, 0⟩ : EnvSlot).phase.toNat < Config.vtim := ⟨envHyps_of_mode _ _ _ rfl, by decide⟩
theorem witness_SustainReturnsTheLevelForever : envHyps voiceParams ⟨0, .sustain, 0, 0⟩ .sustain :=
  envHyps_of_mode _ _ _ rfl
theorem witness_ReleaseNeverExceedsItsStart : envHyps voiceParams ⟨0, .sustain, 2048, 0⟩ .sustain ∧
    (∃ u, exec (.gateOff 0) (env0 ⟨0, .sustain, 2048, 0⟩) = .next u) := ⟨envHyps_of_mode _ _ _ rfl, _, rfl⟩
theorem witness_SetSusActsOnTheNextStep : envHyps voiceParams ⟨0, .sustain, 2048, 0⟩ .sustain :=
  envHyps_of_mode _ _ _ rfl

/-- What the hypotheses of the oscillator statements ask of slot 3, the last voice. -/
theorem witness_SetFreqStoresTheCarrierStep : (3#8).toNat < fresh.cfg.maxVoice ∧ fresh.osc[(3#8).toNat]? = some .reset := by
  decide +kernel
theorem witness_SetFmFreqStoresBothSteps : (3#8).toNat < fresh.cfg.maxVoice ∧ fresh.osc[(3#8).toNat]? = some .reset :=
  witness_SetFreqStoresTheCarrierStep

/-- What the hypotheses of the oscillator step statements ask of slot 0. -/
def oscHyps (w : Wave) (pw : BitVec 12) (o : OscSlot) : Prop :=
  (0#8).toNat < (osc0 w pw o).cfg.maxVoice ∧ (osc0 w pw o).osc[(0#8).toNat]? = some o

theorem oscHyps_holds (w : Wave) (pw : BitVec 12) (o : OscSlot) : oscHyps w pw o :=
  ⟨(by decide +kernel : (0#8).toNat < exampleConfig.maxVoice), rfl⟩

theorem witness_OscStepReadsTheActiveTable : oscHyps .saw 0 .reset ∧ oscHyps .sine 0 .reset ∧ oscHyps .triangle 0 .reset :=
  ⟨oscHyps_holds _ _ _, oscHyps_holds _ _ _, oscHyps_holds _ _ _⟩
/-- The last index below the threshold and the threshold itself, at the clamped width 4095. -/
theorem witness_OscStepSquareFollowsTheThreshold :
    oscHyps .square 4095 ⟨0, 0, 4094 * 1024, 0, 0, 0, 0, 0, 0, 0, 0⟩ ∧
    part (exec (.oscStep 0) (osc0 .square 4095 ⟨0, 0, 4094 * 1024, 0, 0, 0, 0, 0, 0, 0, 0⟩))
      (fun t => decide ((t.oscAt 0).carrierPhase.toNat / 1024 < min (4095 * 4096 / 4096) 4095)) = some true ∧
    part (exec (.oscStep 0) (osc0 .square 4095 ⟨0, 0, 4095 * 1024, 0, 0, 0, 0, 0, 0, 0, 0⟩))
      (fun t => decide (min (4095 * 4096 / 4096) 4095 ≤ (t.oscAt 0).carrierPhase.toNat / 1024)) = some true :=
  ⟨oscHyps_holds _ _ _, by decide +kernel, by decide +kernel⟩
/-- The advanced phase just below the bound, at the bound, and a phase that already holds the bound. -/
theorem witness_OscStepFmDepthEnvelope :
    (oscHyps .saw 0 ⟨0, 0, 0, 0, 0, 4194302, 1, 1800, 0, 0, 0⟩ ∧ 4194302 < Config.vtim ∧ 4194302 + 1 < Config.vtim ∧
      exampleConfig.envTable[4095 - (4194302 + 1) / 1024]? = some 0) ∧
    (oscHyps .saw 0 ⟨0, 0, 0, 0, 0, 4194303, 1, 1800, 0, 0, 0⟩ ∧ 4194303 < Config.vtim ∧ Config.vtim ≤ 4194303 + 1) ∧
    (oscHyps .saw 0 ⟨0, 0, 0, 0, 0, 4194304, 1, 1800, 0, 0, 0⟩ ∧ Config.vtim ≤ 4194304) :=
  ⟨⟨oscHyps_holds _ _ _, by decide, by decide, by decide +kernel⟩, ⟨oscHyps_holds _ _ _, by decide, by decide⟩,
    oscHyps_holds _ _ _, by decide⟩
theorem witness_OscStepFmAdvancesBothPhases : oscHyps .square 0 ⟨0, 73819, 4194000, 147638, 4100000, 0, 0, 0, 0, 0, 0⟩ :=
  oscHyps_holds _ _ _
theorem witness_OscStepFmOutputLookup : oscHyps .saw 0 ⟨0, 0, 0, 0, 2048 * 1024, 4194304, 0, 0, 1, 0, 0⟩ :=
  oscHyps_holds _ _ _
theorem witness_EnginesCommute : (4#8).toNat ≤ fresh.cfg.maxVoice ∧ (3#8).toNat < fresh.cfg.maxVoice ∧
    (Instr.oscStepFm 3 = .oscStep 3 ∨ Instr.oscStepFm 3 = .oscStepFm 3) := by decide +kernel

/-- A sound state with something presented, from which a step answers a next state. -/
theorem witness_StepKeepsSound : (fresh.present [.command ⟨0x20000000, 0⟩]).sound ∧
    ∃ t, step (fresh.present [.command ⟨0x20000000, 0⟩]) = .next t := ⟨by decide +kernel, _, rfl⟩
theorem witness_StepKeepsTheConfiguration : ∃ t, step (fresh.present [.reset]) = .next t := ⟨_, rfl⟩
theorem witness_FreshBlockReturnsIndexZero : (4#8).toNat ≤ exampleConfig.maxVoice ∧ (3#8).toNat < exampleConfig.maxVoice := by
  decide +kernel
/-- The assembler before the first line of a text, for a block of 4 voices. -/
def asmStart : AsmState := ⟨[("FILTER_SLOT".toList, 4)], [], []⟩

/-- For each field width the largest value that fits and the smallest that does not; a class, a waveform name,
and a `selwave` operand that is no name. -/
theorem witness_AssemblerNeverTruncates :
    (["1", "2", "3", "4", "255", "256", "4095", "4096", "65535", "65536", "4294967295", "4294967296"].map fun w =>
      (valueOf asmStart.syms w.toList).toOption) =
      [1, 2, 3, 4, 255, 256, 4095, 4096, 65535, 65536, 4294967295, 4294967296].map some ∧
    classOf "Filter".toList = .ok .filter ∧ lowerCase "SINE".toList = "sine".toList ∧
    lowerCase "3".toList ∉ ["saw".toList, "sine".toList, "tri".toList, "square".toList] := by decide +kernel

theorem witness_PseudoInstructionsExpand : 4 ≤ 255 ∧
    asmStart.syms.find? (fun p => p.1 == "FILTER_SLOT".toList) = some ("FILTER_SLOT".toList, 4) := by decide +kernel

end Sys2Proof.Tests
end

/-! PROOFS, family `10_state`: the reset state, the invariant of the block under every step, the stickiness of
the fault record, and what INIT, SETATK, SETDEC and SETREL write. -/

/-! ## What holds of the next state of a result -/

namespace Sys2Proof.Machine

/-- If the result is a next state, `P` holds of it. -/
def nextHolds (P : State → Prop) : Result → Prop
  | .next t => P t
  | .fault _ => True
  | .refused _ => True

theorem nextHolds_iff {P : State → Prop} {r : Result} : nextHolds P r ↔ ∀ t, r = .next t → P t := by
  cases r <;> simp [nextHolds]

/-- The third test of R88 leads to the effect or to the record of `ERR_SLOT`. -/
theorem nextHolds_inEnvRange {P : State → Prop} {i : Instr} {slot : BitVec 8} {s : State} {r : Result}
    (hfault : P (s.recordFault .slot (encode i).cmd)) (heffect : slot.toNat ≤ s.cfg.maxVoice → nextHolds P r) :
    nextHolds P (inEnvRange i slot s r) := by
  rcases Nat.lt_or_ge s.cfg.maxVoice slot.toNat with hout | hin
  · rw [inEnvRange_of_lt hout]
    exact hfault
  · rw [inEnvRange_of_le hin]
    exact heffect hin

theorem nextHolds_inOscRange {P : State → Prop} {i : Instr} {slot : BitVec 8} {s : State} {r : Result}
    (hfault : P (s.recordFault .slot (encode i).cmd)) (heffect : slot.toNat < s.cfg.maxVoice → nextHolds P r) :
    nextHolds P (inOscRange i slot s r) := by
  rcases Nat.lt_or_ge slot.toNat s.cfg.maxVoice with hin | hout
  · rw [inOscRange_of_lt hin]
    exact heffect hin
  · rw [inOscRange_of_le hout]
    exact hfault

theorem nextHolds_finishEnv {P : State → Prop} {s : State} {i : Nat} {r : Except Fault EnvSlot}
    (h : ∀ e, r = .ok e → P ((s.setEnvAt i e).respond (amplitudeResponse e.output))) :
    nextHolds P (s.finishEnv i r) := by
  refine nextHolds_iff.mpr fun t ht => ?_
  obtain ⟨e, he, rfl⟩ := finishEnv_next ht
  exact h e he

theorem nextHolds_finishOsc {P : State → Prop} {s : State} {i : Nat} {r : Except Fault OscSlot}
    (h : ∀ o, r = .ok o → P ((s.setOscAt i o).respond (sampleResponse o.sample))) :
    nextHolds P (s.finishOsc i r) := by
  refine nextHolds_iff.mpr fun t ht => ?_
  obtain ⟨o, ho, rfl⟩ := finishOsc_next ht
  exact h o ho

/-! ## Bounds of the computed values -/

theorem toNat_truncU_of_lt {n v : Nat} (h : v < 2 ^ n) : (truncU n v).toNat = v :=
  BitVec.toNat_ofNat .. ▸ Nat.mod_eq_of_lt h

theorem envRead_le {c : Config} {i a : Nat} (h : envRead c i = .ok a) : a ≤ Config.envRange := by
  unfold envRead at h
  cases hread : tableAt .env c.envTable i with
  | ok v =>
    rw [hread] at h
    exact Except.ok.inj h ▸ Nat.le_of_lt_succ v.isLt
  | error f =>
    rw [hread] at h
    exact nomatch h

theorem decRead_le {c : Config} {i a : Nat} (h : decRead c i = .ok a) : a ≤ Config.envRange := by
  unfold decRead at h
  split at h
  · exact envRead_le h
  · exact nomatch h

theorem advancePhase_lt (w : Wave) (phase step : Word) :
    (advancePhase (Config.range w) phase step).toNat < Config.range .sine * 2 ^ Config.precisionBits := by
  rw [toNat_advancePhase]
  exact Nat.mod_lt _ (by decide)

/-- A sustain level, widened to an output, stays in the envelope range (R33, R38). -/
theorem toNat_sustainOutput_le (level : BitVec 12) : (level.zeroExtend 16).toNat ≤ Config.envRange := by
  have hwidth : (level.zeroExtend 16).toNat = level.toNat := BitVec.toNat_setWidth_of_le (by decide)
  exact hwidth.trans_le level.isLt.le

/-- What SETATK, SETDEC and SETREL store, by R100 on the clamped rate. -/
theorem toNat_computeStep_clampRate (raw : BitVec 12) (dur : Nat) :
    (computeStep (clampRate raw) dur).toNat = 16777216 / max raw.toNat 5 * 1024 / dur :=
  toNat_computeStep (Nat.le_max_right ..)

/-- The largest duration of R12 is the step's numerator at the largest rate, so no stored step is 0 (R35). -/
theorem one_le_computeStep_clampRate (raw : BitVec 12) {dur : Nat} (hpos : 0 < dur)
    (hmax : dur ≤ Config.durTicksMax) : 1 ≤ (computeStep (clampRate raw) dur).toNat := by
  rw [toNat_computeStep_clampRate, Nat.one_le_div_iff hpos]
  have hrate : max raw.toNat 5 ≤ 4095 := by omega
  have hquot : 16777216 / 4095 ≤ 16777216 / max raw.toNat 5 := Nat.div_le_div_left hrate (by omega)
  calc dur ≤ 16777216 / 4095 * 1024 := hmax
    _ ≤ 16777216 / max raw.toNat 5 * 1024 := Nat.mul_le_mul_right _ hquot

theorem durTicksDecay_pos (c : Config) : 0 < c.durTicksDecay := Nat.succ_pos _

theorem durTicksDecay_le (c : Config) : c.durTicksDecay ≤ Config.durTicksMax := c.durDecayLessOne.isLt

theorem durTicksRelease_pos (c : Config) : 0 < c.durTicksRelease := Nat.succ_pos _

theorem durTicksRelease_le (c : Config) : c.durTicksRelease ≤ Config.durTicksMax := c.durReleaseLessOne.isLt

/-! ## Writes of a parameter set -/

@[simp] theorem ep_respond (s : State) (r : Word) (c : ParamClass) : (s.respond r).ep c = s.ep c := by
  cases c <;> rfl

@[simp] theorem ep_setEp_self (s : State) (c : ParamClass) (p : EnvParams) : (s.setEp c p).ep c = p := by
  rw [ep_setEp, if_pos rfl]

/-- The frame of the commands that write one parameter set (R104 to R107). -/
theorem onlyParamsWritten_setEp_respond (s : State) (c : ParamClass) (p : EnvParams) (r : Word) :
    onlyParamsWritten c s ((s.setEp c p).respond r) :=
  ⟨setEp_cfg .., setEp_env .., setEp_osc .., setEp_wave .., setEp_modRatio .., setEp_pulseWidth .., setEp_status ..,
    setEp_faultCmd .., setEp_inbox .., fun d hd => by rw [ep_respond, ep_setEp, if_neg hd]⟩

/-! ## The invariant of an envelope entry (R38) -/

theorem silent_of_sweeps {m : Mode} (h : m.sweeps = true) : m.silent = false := by
  revert h
  cases m <;> decide

/-- At phase 0 the invariant asks only that the two levels are in range, and a silent mode's output 0. -/
theorem EnvSlot.sound_of_phase_zero {mode : Mode} {output start : BitVec 16}
    (hsilent : mode.silent = true → output = 0) (hout : output.toNat ≤ Config.envRange)
    (hstart : start.toNat ≤ Config.envRange) : (⟨0, mode, output, start⟩ : EnvSlot).sound :=
  ⟨(by decide : (0 : Word).toNat < Config.vtim), fun _ => rfl, hsilent, hout, hstart⟩

theorem EnvSlot.sound_reset : EnvSlot.reset.sound :=
  sound_of_phase_zero (fun _ => rfl) (by decide) (by decide)

theorem EnvSlot.sound.output_le {e : EnvSlot} (he : e.sound) : e.output.toNat ≤ Config.envRange := by
  obtain ⟨-, -, -, hout, -⟩ := he
  exact hout

theorem EnvSlot.sound.start_le {e : EnvSlot} (he : e.sound) : e.releaseStartLevel.toNat ≤ Config.envRange := by
  obtain ⟨-, -, -, -, hstart⟩ := he
  exact hstart

theorem EnvSlot.sound.attacked {e : EnvSlot} (he : e.sound) : e.attacked.sound :=
  sound_of_phase_zero nofun he.output_le he.start_le

/-- The captured level is the entry's output, which is where the bound on `releaseStartLevel` comes from (R103). -/
theorem EnvSlot.sound.released {e : EnvSlot} (he : e.sound) : e.released.sound :=
  sound_of_phase_zero nofun he.output_le he.output_le

theorem EnvSlot.sound.sustained {e : EnvSlot} (he : e.sound) (p : EnvParams) : (e.sustained p).sound :=
  sound_of_phase_zero nofun (toNat_sustainOutput_le _) he.start_le

theorem EnvSlot.sound.stopped {e : EnvSlot} (he : e.sound) : e.stopped.sound :=
  sound_of_phase_zero (fun _ => rfl) (by decide) he.start_le

/-- A tick that stays in a sweeping mode keeps the invariant if the advanced phase is below `VTIM` and the new
output is in the envelope range. -/
theorem EnvSlot.sound.swept {e : EnvSlot} (he : e.sound) (hmode : e.mode.sweeps = true) {t a : Nat}
    (ht : t < Config.vtim) (ha : a ≤ Config.envRange) :
    ({ e with phase := truncU 32 t, output := truncU 16 a } : EnvSlot).sound := by
  have hphase : (truncU 32 t).toNat = t := toNat_truncU_of_lt (ht.trans (by decide))
  have hout : (truncU 16 a).toNat = a := toNat_truncU_of_lt (ha.trans_lt (by decide))
  refine ⟨hphase.trans_lt ht, fun hsweeps => ?_, fun hsilent => ?_, hout.trans_le ha, he.start_le⟩
  · exact absurd hmode (by simp [hsweeps])
  · exact absurd (silent_of_sweeps hmode) (by simp [hsilent])

theorem attackTick_sound {c : Config} {p : EnvParams} {e e' : EnvSlot} (he : e.sound) (hmode : e.mode = .attack)
    (h : attackTick c p e = .ok e') : e'.sound := by
  simp only [attackTick] at h
  split at h
  next =>
    cases h
    exact EnvSlot.sound_of_phase_zero nofun he.output_le he.start_le
  next hbelow =>
    split at h
    next a hread =>
      cases h
      exact he.swept (by simp [hmode, Mode.sweeps]) (Nat.lt_of_not_le hbelow) (envRead_le hread)
    next => exact nomatch h

theorem decayTick_sound {c : Config} {p : EnvParams} {e e' : EnvSlot} (he : e.sound) (hmode : e.mode = .decay)
    (h : decayTick c p e = .ok e') : e'.sound := by
  simp only [decayTick] at h
  split at h
  next => exact Except.ok.inj h ▸ he.sustained p
  next hbelow =>
    split at h
    next a hread =>
      split at h
      next => exact Except.ok.inj h ▸ he.sustained p
      next =>
        cases h
        exact he.swept (by simp [hmode, Mode.sweeps]) (Nat.lt_of_not_le hbelow) (decRead_le hread)
    next => exact nomatch h

theorem sustainTick_sound {p : EnvParams} {e : EnvSlot} (he : e.sound) (hmode : e.mode = .sustain) :
    (sustainTick p e).sound := by
  obtain ⟨hphase, hzero, -, -, hstart⟩ := he
  have hnotSilent : e.mode.silent = false := by rw [hmode]; rfl
  exact ⟨hphase, hzero, fun hsilent => absurd hsilent (by simp [sustainTick, hnotSilent]),
    toNat_sustainOutput_le _, hstart⟩

/-- A table value at most `ENV_RANGE` scales a level to at most that level (R126). -/
theorem scaled_le {d level : Nat} (hd : d ≤ Config.envRange) : d * level / Config.envRange ≤ level :=
  Nat.div_le_of_le_mul (Nat.mul_le_mul_right level hd)

theorem releaseTick_sound {c : Config} {p : EnvParams} {e e' : EnvSlot} (he : e.sound) (hmode : e.mode = .release)
    (h : releaseTick c p e = .ok e') : e'.sound := by
  simp only [releaseTick] at h
  split at h
  next => exact Except.ok.inj h ▸ he.stopped
  next hbelow =>
    split at h
    next d hread =>
      split at h
      next => exact Except.ok.inj h ▸ he.stopped
      next =>
        cases h
        exact he.swept (by simp [hmode, Mode.sweeps]) (Nat.lt_of_not_le hbelow)
          ((scaled_le (decRead_le hread)).trans he.start_le)
    next => exact nomatch h

/-- One tick keeps the invariant of the entry, in every mode and under every parameter set (R38, R120). -/
theorem envTick_sound {c : Config} {p : EnvParams} {e e' : EnvSlot} (he : e.sound) (h : envTick c p e = .ok e') :
    e'.sound := by
  unfold envTick at h
  split at h
  next hmode => exact attackTick_sound he hmode h
  next hmode => exact decayTick_sound he hmode h
  next hmode => exact Except.ok.inj h ▸ sustainTick_sound he hmode
  next hmode => exact releaseTick_sound he hmode h
  next => exact Except.ok.inj h ▸ he
  next => exact Except.ok.inj h ▸ he

/-! ## The invariant of an oscillator entry (R40) -/

theorem OscSlot.sound_reset : OscSlot.reset.sound := by decide

theorem setFreqSlot_sound {o : OscSlot} (ho : o.sound) (w : Wave) (pitch : BitVec 16) (ts : Word) :
    (setFreqSlot w pitch ts o).sound := ho

theorem setFmFreqSlot_sound {o : OscSlot} (ho : o.sound) (c : Config) (ratio pitch : BitVec 16) (ts : Word) :
    (setFmFreqSlot c ratio pitch ts o).sound := by
  obtain ⟨hcarrier, hmodulator, -⟩ := ho
  exact ⟨hcarrier, hmodulator, Nat.zero_le _⟩

theorem oscTick_sound {c : Config} {w : Wave} {pw : BitVec 12} {o o' : OscSlot} (ho : o.sound)
    (h : oscTick c w pw o = .ok o') : o'.sound := by
  obtain ⟨-, hmodulator, henv⟩ := ho
  simp only [oscTick] at h
  split at h
  · cases h
    exact ⟨advancePhase_lt .., hmodulator, henv⟩
  · exact nomatch h

theorem modEnvTick_sound {c : Config} {o o' : OscSlot} (ho : o.sound) (h : modEnvTick c o = .ok o') : o'.sound := by
  simp only [modEnvTick] at h
  split at h
  next =>
    obtain ⟨hcarrier, hmodulator, -⟩ := ho
    split at h
    next hbelow =>
      split at h
      next =>
        cases h
        exact ⟨hcarrier, hmodulator, (toNat_truncU_of_lt (hbelow.trans (by decide))).trans_le hbelow.le⟩
      next => exact nomatch h
    next =>
      cases h
      exact ⟨hcarrier, hmodulator, (toNat_truncU_of_lt (by decide)).le⟩
  next => exact Except.ok.inj h ▸ ho

theorem fmPhases_sound {o : OscSlot} (ho : o.sound) : (fmPhases o).sound := by
  obtain ⟨-, -, henv⟩ := ho
  exact ⟨advancePhase_lt .., advancePhase_lt .., henv⟩

theorem fmLookup_sound {c : Config} {o o' : OscSlot} (ho : o.sound) (h : fmLookup c o = .ok o') : o'.sound := by
  unfold fmLookup at h
  split at h
  · split at h
    · cases h
      exact ho
    · exact nomatch h
  · exact nomatch h

/-- One tick on the phase-modulation path keeps the invariant of the entry (R40, R152). -/
theorem fmTick_sound {c : Config} {o o' : OscSlot} (ho : o.sound) (h : fmTick c o = .ok o') : o'.sound := by
  unfold fmTick at h
  split at h
  next o1 hmod => exact fmLookup_sound (fmPhases_sound (modEnvTick_sound ho hmod)) h
  next => exact nomatch h

/-! ## The invariant of the block under each write -/

/-- The invariant is about the slot files and the fault registers alone. -/
theorem State.sound.congr {s t : State} (hs : s.sound) (hcfg : t.cfg = s.cfg) (henv : t.env = s.env)
    (hosc : t.osc = s.osc) (hstatus : t.status = s.status) (hcmd : t.faultCmd = s.faultCmd) : t.sound := by
  simpa only [State.sound, State.filesSized, State.faultRegsSound, State.readStatus, hcfg, henv, hosc, hstatus, hcmd]
    using hs

theorem State.sound.envAt {s : State} (hs : s.sound) (i : Nat) : (s.envAt i).sound := by
  obtain ⟨-, henv, -, -⟩ := hs
  rcases Nat.lt_or_ge i s.env.length with hi | hi
  · exact henv _ (envAt_mem hi)
  · rw [State.envAt, List.getD_eq_default _ _ hi]
    exact EnvSlot.sound_reset

theorem State.sound.oscAt {s : State} (hs : s.sound) (i : Nat) : (s.oscAt i).sound := by
  obtain ⟨-, -, hosc, -⟩ := hs
  rcases Nat.lt_or_ge i s.osc.length with hi | hi
  · exact hosc _ (oscAt_mem hi)
  · rw [State.oscAt, List.getD_eq_default _ _ hi]
    exact OscSlot.sound_reset

theorem State.sound.respond {s : State} (hs : s.sound) (r : Word) : (s.respond r).sound :=
  hs.congr rfl rfl rfl rfl rfl

theorem State.sound.setEp {s : State} (hs : s.sound) (c : ParamClass) (p : EnvParams) : (s.setEp c p).sound :=
  hs.congr (setEp_cfg ..) (setEp_env ..) (setEp_osc ..) (setEp_status ..) (setEp_faultCmd ..)

theorem State.sound.setEnvAt {s : State} (hs : s.sound) (i : Nat) {e : EnvSlot} (he : e.sound) :
    (s.setEnvAt i e).sound := by
  obtain ⟨⟨henvSize, hoscSize⟩, henv, hosc, hfault⟩ := hs
  refine ⟨⟨by simpa using henvSize, hoscSize⟩, fun x hx => ?_, hosc, hfault⟩
  rcases List.mem_or_eq_of_mem_set hx with hold | rfl
  · exact henv x hold
  · exact he

theorem State.sound.setOscAt {s : State} (hs : s.sound) (i : Nat) {o : OscSlot} (ho : o.sound) :
    (s.setOscAt i o).sound := by
  obtain ⟨⟨henvSize, hoscSize⟩, henv, hosc, hfault⟩ := hs
  refine ⟨⟨henvSize, by simpa using hoscSize⟩, henv, fun x hx => ?_, hfault⟩
  rcases List.mem_or_eq_of_mem_set hx with hold | rfl
  · exact hosc x hold
  · exact ho

theorem State.sound.attackSlot {s : State} (hs : s.sound) (i : Nat) : (s.attackSlot i).sound :=
  hs.setEnvAt i (hs.envAt i).attacked

theorem State.sound.initEnvelopes {s : State} (hs : s.sound) : s.initEnvelopes.sound := by
  obtain ⟨⟨henvSize, hoscSize⟩, -, hosc, hfault⟩ := hs
  refine ⟨⟨by simpa using henvSize, hoscSize⟩, fun e he => ?_, hosc, hfault⟩
  obtain ⟨_, _, rfl⟩ := List.mem_map.mp he
  exact EnvSlot.sound_reset

theorem statusBit_ne_zero (k : FaultKind) : k.statusBit ≠ 0 := by
  cases k <;> decide

/-- A recorded fault leaves `STATUS` nonzero, so nothing is asked of `FAULT_CMD` (R46, R172). -/
theorem readStatus_recordFault_ne_zero (s : State) (k : FaultKind) (w : Word) :
    (s.recordFault k w).readStatus ≠ 0 := by
  rw [readStatus_recordFault]
  exact fun h => statusBit_ne_zero k (BitVec.or_eq_zero_iff.mp h).2

theorem faultRegsSound_recordFault (s : State) (k : FaultKind) (w : Word) :
    (s.recordFault k w).faultRegsSound := by
  refine ⟨?_, fun h => absurd h (readStatus_recordFault_ne_zero s k w)⟩
  rw [State.readStatus, recordFault_status, BitVec.and_assoc, BitVec.and_self]

theorem State.sound.recordFault {s : State} (hs : s.sound) (k : FaultKind) (w : Word) :
    (s.recordFault k w).sound := by
  obtain ⟨⟨henvSize, hoscSize⟩, henv, hosc, -⟩ := hs
  exact ⟨⟨by simpa using henvSize, by simpa using hoscSize⟩, by simpa using henv, by simpa using hosc,
    faultRegsSound_recordFault s k w⟩

/-- The reset state of every configuration is sound: the base case of the invariant (R52). -/
theorem sound_resetWith (c : Config) : (State.resetWith c).sound := by
  refine ⟨⟨by simp, by simp⟩, fun e he => ?_, fun o ho => ?_, ⟨by simp [State.readStatus], fun _ => rfl⟩⟩
  · exact List.eq_of_mem_replicate he ▸ EnvSlot.sound_reset
  · exact List.eq_of_mem_replicate ho ▸ OscSlot.sound_reset

theorem sound_hardwareReset (s : State) : s.hardwareReset.sound :=
  (sound_resetWith s.cfg).congr rfl rfl rfl rfl rfl

/-! ## The invariant of the block under each command and each step -/

theorem exec_keeps_sound {s : State} (hs : s.sound) (i : Instr) : nextHolds State.sound (exec i s) := by
  cases i with
  | init => exact hs.initEnvelopes.respond 0
  | gateOn => exact nextHolds_inEnvRange (hs.recordFault ..) fun _ => ((hs.attackSlot _).attackSlot _).respond 0
  | gateOff => exact nextHolds_inEnvRange (hs.recordFault ..) fun _ => (hs.setEnvAt _ (hs.envAt _).released).respond 0
  | setAtk | setDec | setRel | setSus => exact (hs.setEp ..).respond 0
  | selWave | setModRatio | setPw => exact hs.congr rfl rfl rfl rfl rfl
  | setFreq =>
    exact nextHolds_inOscRange (hs.recordFault ..) fun _ =>
      (hs.setOscAt _ (setFreqSlot_sound (hs.oscAt _) ..)).respond 0
  | setFmFreq =>
    exact nextHolds_inOscRange (hs.recordFault ..) fun _ =>
      (hs.setOscAt _ (setFmFreqSlot_sound (hs.oscAt _) ..)).respond 0
  | envStep =>
    exact nextHolds_inEnvRange (hs.recordFault ..) fun _ => nextHolds_finishEnv fun _ htick =>
      (hs.setEnvAt _ (envTick_sound (hs.envAt _) htick)).respond _
  | oscStep =>
    exact nextHolds_inOscRange (hs.recordFault ..) fun _ => nextHolds_finishOsc fun _ htick =>
      (hs.setOscAt _ (oscTick_sound (hs.oscAt _) htick)).respond _
  | oscStepFm =>
    exact nextHolds_inOscRange (hs.recordFault ..) fun _ => nextHolds_finishOsc fun _ htick =>
      (hs.setOscAt _ (fmTick_sound (hs.oscAt _) htick)).respond _

theorem transact_keeps_sound {s : State} (hs : s.sound) (c : Command) : nextHolds State.sound (transact c s) := by
  unfold transact
  split
  next i _ => exact exec_keeps_sound hs i
  next => exact hs.recordFault ..

theorem acceptInput_keeps_sound {s : State} (hs : s.sound) (x : HostInput) :
    nextHolds State.sound (acceptInput x s) := by
  cases x with
  | command c => exact transact_keeps_sound hs c
  | reset => exact sound_hardwareReset s

theorem step_keeps_sound {s : State} (hs : s.sound) : nextHolds State.sound (step s) := by
  unfold step
  split
  next => exact hs
  next rest _ =>
    have hpopped : ({ s with inbox := rest } : State).sound := hs.congr rfl rfl rfl rfl rfl
    exact acceptInput_keeps_sound hpopped _

/-! ## The fault record is sticky (R45, R46, R178) -/

/-- From `s` to `t` no `STATUS` bit is cleared, and a recorded `FAULT_CMD` is kept. -/
def faultRecordKept (s t : State) : Prop :=
  t.readStatus &&& s.readStatus = s.readStatus ∧ (s.readStatus ≠ 0 → t.faultCmd = s.faultCmd)

/-- Whatever leaves the two fault registers alone keeps the fault record. -/
theorem faultRecordKept_of_eq {s t : State} (hstatus : t.status = s.status) (hcmd : t.faultCmd = s.faultCmd) :
    faultRecordKept s t :=
  ⟨by rw [State.readStatus, hstatus, State.readStatus, BitVec.and_self], fun _ => hcmd⟩

theorem faultRecordKept_recordFault (s : State) (k : FaultKind) (w : Word) :
    faultRecordKept s (s.recordFault k w) := by
  refine ⟨?_, fun h => ?_⟩
  · rw [readStatus_recordFault]
    ext i hi
    simp only [BitVec.getElem_and, BitVec.getElem_or]
    cases s.readStatus[i] <;> simp
  · rw [recordFault_faultCmd, if_neg h]

theorem exec_keeps_faultRecord (i : Instr) (s : State) : nextHolds (faultRecordKept s) (exec i s) := by
  have hslot := faultRecordKept_recordFault s .slot
  cases i with
  | init | selWave | setModRatio | setPw => exact faultRecordKept_of_eq rfl rfl
  | setAtk | setDec | setRel | setSus => exact faultRecordKept_of_eq (setEp_status ..) (setEp_faultCmd ..)
  | gateOn | gateOff => exact nextHolds_inEnvRange (hslot _) fun _ => faultRecordKept_of_eq rfl rfl
  | setFreq | setFmFreq => exact nextHolds_inOscRange (hslot _) fun _ => faultRecordKept_of_eq rfl rfl
  | envStep =>
    exact nextHolds_inEnvRange (hslot _) fun _ => nextHolds_finishEnv fun _ _ => faultRecordKept_of_eq rfl rfl
  | oscStep | oscStepFm =>
    exact nextHolds_inOscRange (hslot _) fun _ => nextHolds_finishOsc fun _ _ => faultRecordKept_of_eq rfl rfl

theorem transact_keeps_faultRecord (c : Command) (s : State) : nextHolds (faultRecordKept s) (transact c s) := by
  unfold transact
  split
  next i _ => exact exec_keeps_faultRecord i s
  next => exact faultRecordKept_recordFault ..

/-! ## The obligations -/

/-- Settles O51, by a case split on what the host presents and on the command. -/
theorem stepKeepsSound : Obligations.StepKeepsSound :=
  fun _ t hs => nextHolds_iff.mp (step_keeps_sound hs) t

/-- Settles O16: a command leaves the fault registers alone or records `ERR_SLOT`, and a word that is no command
records its fault. -/
theorem faultRecordIsSticky : Obligations.FaultRecordIsSticky :=
  fun c s => nextHolds_iff.mp (transact_keeps_faultRecord c s)

/-- Settles O22: the set read back is the set written, whose step is R100's for the fixed duration. -/
theorem setAtkStoresTheAttackStep : Obligations.SetAtkStoresTheAttackStep := by
  intro s cls raw
  refine ⟨_, rfl, ?_, ?_, ?_, by simp, onlyParamsWritten_setEp_respond ..⟩ <;> simp only [ep_respond, ep_setEp_self]
  · exact toNat_computeStep_clampRate ..
  · exact one_le_computeStep_clampRate raw (by decide) (by decide)

/-- Settles O23: as O22, with a duration that is any of R12's domain. -/
theorem setDecStoresTheDecayStep : Obligations.SetDecStoresTheDecayStep := by
  intro s cls raw
  refine ⟨_, rfl, ?_, ?_, ?_, by simp, onlyParamsWritten_setEp_respond ..⟩ <;> simp only [ep_respond, ep_setEp_self]
  · exact toNat_computeStep_clampRate ..
  · exact one_le_computeStep_clampRate raw (durTicksDecay_pos _) (durTicksDecay_le _)

/-- Settles O24: as O23, with the release duration. -/
theorem setRelStoresTheReleaseStep : Obligations.SetRelStoresTheReleaseStep := by
  intro s cls raw
  refine ⟨_, rfl, ?_, ?_, ?_, by simp, onlyParamsWritten_setEp_respond ..⟩ <;> simp only [ep_respond, ep_setEp_self]
  · exact toNat_computeStep_clampRate ..
  · exact one_le_computeStep_clampRate raw (durTicksRelease_pos _) (durTicksRelease_le _)

/-- Settles O19: a file of `MAXVOICE + 1` entries has an entry at each slot, and INIT maps every entry to reset. -/
theorem initZeroesTheEnvelopeEngine : Obligations.InitZeroesTheEnvelopeEngine := by
  rintro s dbg ⟨henvSize, hoscSize⟩
  refine ⟨s.initEnvelopes.respond 0, rfl, ⟨by simpa using henvSize, hoscSize⟩, fun j hj => ?_,
    rfl, rfl, rfl, rfl, rfl, rfl, rfl, rfl, rfl, rfl, rfl⟩
  have hslot : j < s.env.length := by omega
  simp [hslot, EnvSlot.reset]

/-- Settles O50: every entry of the reset files is the reset entry, and both fault registers are 0. -/
theorem resetIsSound : Obligations.ResetIsSound :=
  ⟨sound_resetWith, sound_resetWith _, by simp [State.faultFree, State.readStatus, State.reset]⟩

end Sys2Proof.Machine

/-! PROOFS, family `20_memory`: every command reaches a next state, no step changes the configuration, and a queue
of commands is executed in the order presented. -/

/-! ## No table read is out of range (R62) -/

namespace Sys2Proof.Machine

/-- An advanced phase below `VTIM` indexes an entry of the envelope table (R122). -/
theorem shiftRight_lt_of_lt_vtim {t : Nat} (h : t < Config.vtim) : t >>> Config.precisionBits < 4096 := by
  rw [Nat.shiftRight_eq_div_pow]
  exact Nat.div_lt_of_lt_mul h

theorem phaseIndex_advancePhase_lt (w : Wave) (phase step : Word) :
    phaseIndex (advancePhase (Config.range w) phase step) < 4096 :=
  shiftRight_lt_of_lt_vtim (advancePhase_lt w phase step)

/-- The index mask of a waveform keeps an index inside its table (R151). -/
theorem maskedIndex_lt (w : Wave) (i : Nat) : i &&& (Config.range w - 1) < 4096 := by
  rw [range_eq]
  exact Nat.lt_succ_of_le Nat.and_le_right

theorem attackTick_ok (c : Config) (p : EnvParams) (e : EnvSlot) : ∃ e', attackTick c p e = .ok e' := by
  simp only [attackTick]
  split
  next => exact ⟨_, rfl⟩
  next hbelow =>
    rw [envRead_of_lt (shiftRight_lt_of_lt_vtim (Nat.lt_of_not_le hbelow))]
    exact ⟨_, rfl⟩

theorem decayTick_ok (c : Config) (p : EnvParams) (e : EnvSlot) : ∃ e', decayTick c p e = .ok e' := by
  simp only [decayTick]
  split
  next => exact ⟨_, rfl⟩
  next hbelow =>
    simp only [decRead_of_lt (shiftRight_lt_of_lt_vtim (Nat.lt_of_not_le hbelow))]
    split <;> exact ⟨_, rfl⟩

theorem releaseTick_ok (c : Config) (p : EnvParams) (e : EnvSlot) : ∃ e', releaseTick c p e = .ok e' := by
  simp only [releaseTick]
  split
  next => exact ⟨_, rfl⟩
  next hbelow =>
    simp only [decRead_of_lt (shiftRight_lt_of_lt_vtim (Nat.lt_of_not_le hbelow))]
    split <;> exact ⟨_, rfl⟩

/-- A tick of an envelope entry always answers an entry, in every mode and under every parameter set (R120). -/
theorem envTick_ok (c : Config) (p : EnvParams) (e : EnvSlot) : ∃ e', envTick c p e = .ok e' := by
  unfold envTick
  cases e.mode with
  | attack => exact attackTick_ok c p e
  | decay => exact decayTick_ok c p e
  | release => exact releaseTick_ok c p e
  | sustain | stopping | stop => exact ⟨_, rfl⟩

theorem waveSample_ok (c : Config) (pw : BitVec 12) (w : Wave) {i : Nat} (hi : i < 4096) :
    ∃ smp, waveSample c pw w i = .ok smp := by
  cases w with
  | saw | sine | triangle => exact ⟨_, tableAt_of_lt hi⟩
  | square => exact ⟨_, rfl⟩

theorem oscTick_ok (c : Config) (w : Wave) (pw : BitVec 12) (o : OscSlot) : ∃ o', oscTick c w pw o = .ok o' := by
  obtain ⟨smp, hsmp⟩ := waveSample_ok c pw w
    (maskedIndex_lt w (phaseIndex (advancePhase (Config.range w) o.carrierPhase o.carrierStep)))
  simp only [oscTick, hsmp]
  exact ⟨_, rfl⟩

theorem modEnvTick_ok (c : Config) (o : OscSlot) : ∃ o', modEnvTick c o = .ok o' := by
  simp only [modEnvTick]
  split
  next =>
    split
    next hbelow =>
      rw [decRead_of_lt (shiftRight_lt_of_lt_vtim hbelow)]
      exact ⟨_, rfl⟩
    next => exact ⟨_, rfl⟩
  next => exact ⟨_, rfl⟩

/-- The two lookups of OSCSTEPFM: the modulator's index is that of a phase just advanced, and the output's is reduced
modulo the table (R155, R156). -/
theorem fmLookup_fmPhases_ok (c : Config) (o : OscSlot) : ∃ o', fmLookup c (fmPhases o) = .ok o' := by
  have hmod : phaseIndex (fmPhases o).modulatorPhase < 4096 := phaseIndex_advancePhase_lt .sine ..
  have hout : ∀ phase off, fmIndex phase off < 4096 := fun _ _ => Nat.mod_lt _ (by decide)
  simp only [fmLookup, sineRead_of_lt hmod, sineRead_of_lt (hout ..)]
  exact ⟨_, rfl⟩

theorem fmTick_ok (c : Config) (o : OscSlot) : ∃ o', fmTick c o = .ok o' := by
  obtain ⟨o1, hmod⟩ := modEnvTick_ok c o
  simp only [fmTick, hmod]
  exact fmLookup_fmPhases_ok c o1

/-! ## Every command reaches a next state (R188) -/

/-- The record of `ERR_SLOT` is a next state too, so the third test of R88 asks only about the effect. -/
theorem inEnvRange_next (i : Instr) (slot : BitVec 8) (s : State) {r : Result} (h : ∃ t, r = .next t) :
    ∃ t, inEnvRange i slot s r = .next t := by
  unfold inEnvRange
  split
  · exact h
  · exact ⟨_, rfl⟩

theorem inOscRange_next (i : Instr) (slot : BitVec 8) (s : State) {r : Result} (h : ∃ t, r = .next t) :
    ∃ t, inOscRange i slot s r = .next t := by
  unfold inOscRange
  split
  · exact h
  · exact ⟨_, rfl⟩

theorem finishEnv_next_of_ok (s : State) (slot : Nat) {r : Except Fault EnvSlot} (h : ∃ e, r = .ok e) :
    ∃ t, s.finishEnv slot r = .next t := by
  obtain ⟨e, rfl⟩ := h
  exact ⟨_, rfl⟩

theorem finishOsc_next_of_ok (s : State) (slot : Nat) {r : Except Fault OscSlot} (h : ∃ o, r = .ok o) :
    ∃ t, s.finishOsc slot r = .next t := by
  obtain ⟨o, rfl⟩ := h
  exact ⟨_, rfl⟩

theorem exec_next (i : Instr) (s : State) : ∃ t, exec i s = .next t := by
  cases i with
  | init | setAtk | setDec | setRel | setSus | selWave | setModRatio | setPw => exact ⟨_, rfl⟩
  | gateOn | gateOff => exact inEnvRange_next _ _ _ ⟨_, rfl⟩
  | setFreq | setFmFreq => exact inOscRange_next _ _ _ ⟨_, rfl⟩
  | envStep => exact inEnvRange_next _ _ _ (finishEnv_next_of_ok _ _ (envTick_ok ..))
  | oscStep => exact inOscRange_next _ _ _ (finishOsc_next_of_ok _ _ (oscTick_ok ..))
  | oscStepFm => exact inOscRange_next _ _ _ (finishOsc_next_of_ok _ _ (fmTick_ok ..))

/-! ## A transaction and a step, case by case (R69, R88) -/

theorem transact_of_ok {c : Command} {i : Instr} (h : decode c = .ok i) (s : State) : transact c s = exec i s := by
  simp only [transact, h]

theorem transact_of_error {c : Command} {e : DecodeError} (h : decode c = .error e) (s : State) :
    transact c s = .next (s.recordFault (decodeErrorKind e) c.cmd) := by
  simp only [transact, h]

theorem transact_next (c : Command) (s : State) : ∃ t, transact c s = .next t := by
  cases h : decode c with
  | ok i => exact transact_of_ok h s ▸ exec_next i s
  | error e => exact ⟨_, transact_of_error h s⟩

theorem step_of_inbox_nil {s : State} (h : s.inbox = []) : step s = .next s := by
  simp only [step, h]

theorem step_of_inbox_cons {s : State} {x : HostInput} {rest : List HostInput} (h : s.inbox = x :: rest) :
    step s = acceptInput x { s with inbox := rest } := by
  simp only [step, h]

/-! ## What no command touches: the configuration and the queue (R209) -/

/-- From `s` to `t` the configuration and what the host has presented are kept. -/
def hostSideKept (s t : State) : Prop :=
  t.cfg = s.cfg ∧ t.inbox = s.inbox

theorem hostSideKept_recordFault (s : State) (k : FaultKind) (w : Word) : hostSideKept s (s.recordFault k w) :=
  ⟨recordFault_cfg .., recordFault_inbox ..⟩

theorem exec_keeps_hostSide (i : Instr) (s : State) : nextHolds (hostSideKept s) (exec i s) := by
  have hslot := hostSideKept_recordFault s .slot
  cases i with
  | init | selWave | setModRatio | setPw => exact ⟨rfl, rfl⟩
  | setAtk | setDec | setRel | setSus => exact ⟨setEp_cfg .., setEp_inbox ..⟩
  | gateOn | gateOff => exact nextHolds_inEnvRange (hslot _) fun _ => ⟨rfl, rfl⟩
  | setFreq | setFmFreq => exact nextHolds_inOscRange (hslot _) fun _ => ⟨rfl, rfl⟩
  | envStep => exact nextHolds_inEnvRange (hslot _) fun _ => nextHolds_finishEnv fun _ _ => ⟨rfl, rfl⟩
  | oscStep | oscStepFm => exact nextHolds_inOscRange (hslot _) fun _ => nextHolds_finishOsc fun _ _ => ⟨rfl, rfl⟩

theorem transact_keeps_hostSide (c : Command) (s : State) : nextHolds (hostSideKept s) (transact c s) := by
  cases h : decode c with
  | ok i => exact transact_of_ok h s ▸ exec_keeps_hostSide i s
  | error e => exact transact_of_error h s ▸ hostSideKept_recordFault ..

theorem acceptInput_keeps_hostSide (x : HostInput) (s : State) : nextHolds (hostSideKept s) (acceptInput x s) := by
  cases x with
  | command c => exact transact_keeps_hostSide c s
  | reset => exact ⟨hardwareReset_cfg s, hardwareReset_inbox s⟩

theorem step_cfg {s t : State} (h : step s = .next t) : t.cfg = s.cfg := by
  cases hinbox : s.inbox with
  | nil =>
    rw [step_of_inbox_nil hinbox] at h
    exact Host.Outcome.next.inj h ▸ rfl
  | cons x rest =>
    rw [step_of_inbox_cons hinbox] at h
    obtain ⟨hcfg, -⟩ := nextHolds_iff.mp (acceptInput_keeps_hostSide x _) t h
    exact hcfg

/-! ## A command does not look at the queue (R69) -/

/-- The result with the next state, if there is one, passed through `f`. -/
def mapNext (f : State → State) : Result → Result
  | .next t => .next (f t)
  | .fault e => .fault e
  | .refused r => .refused r

theorem recordFault_present (s : State) (xs : List HostInput) (k : FaultKind) (w : Word) :
    (s.present xs).recordFault k w = (s.recordFault k w).present xs := by
  have hstatus : (s.present xs).readStatus = s.readStatus := rfl
  simp only [State.recordFault, hstatus]
  split <;> rfl

theorem setEp_present (s : State) (xs : List HostInput) (c : ParamClass) (p : EnvParams) :
    (s.present xs).setEp c p = (s.setEp c p).present xs := by
  cases c <;> rfl

theorem inEnvRange_present {s : State} {xs : List HostInput} {i : Instr} {slot : BitVec 8} {r r' : Result}
    (h : r' = mapNext (·.present xs) r) :
    inEnvRange i slot (s.present xs) r' = mapNext (·.present xs) (inEnvRange i slot s r) := by
  rcases Nat.lt_or_ge s.cfg.maxVoice slot.toNat with hout | hin
  · rw [inEnvRange_of_lt hout, inEnvRange_of_lt (s := s.present xs) hout, recordFault_present, mapNext]
  · rw [inEnvRange_of_le hin, inEnvRange_of_le (s := s.present xs) hin, h]

theorem inOscRange_present {s : State} {xs : List HostInput} {i : Instr} {slot : BitVec 8} {r r' : Result}
    (h : r' = mapNext (·.present xs) r) :
    inOscRange i slot (s.present xs) r' = mapNext (·.present xs) (inOscRange i slot s r) := by
  rcases Nat.lt_or_ge slot.toNat s.cfg.maxVoice with hin | hout
  · rw [inOscRange_of_lt hin, inOscRange_of_lt (s := s.present xs) hin, h]
  · rw [inOscRange_of_le hout, inOscRange_of_le (s := s.present xs) hout, recordFault_present, mapNext]

theorem finishEnv_present (s : State) (xs : List HostInput) (slot : Nat) (r : Except Fault EnvSlot) :
    (s.present xs).finishEnv slot r = mapNext (·.present xs) (s.finishEnv slot r) := by
  cases r <;> rfl

theorem finishOsc_present (s : State) (xs : List HostInput) (slot : Nat) (r : Except Fault OscSlot) :
    (s.present xs).finishOsc slot r = mapNext (·.present xs) (s.finishOsc slot r) := by
  cases r <;> rfl

/-- A command executed with more inputs waiting does what it does without them, and they still wait. -/
theorem exec_present (i : Instr) (s : State) (xs : List HostInput) :
    exec i (s.present xs) = mapNext (·.present xs) (exec i s) := by
  cases i with
  | init | selWave | setModRatio | setPw => rfl
  | setAtk | setDec | setRel | setSus => exact congrArg (fun t => Host.Outcome.next (t.respond 0)) (setEp_present ..)
  | gateOn | gateOff => exact inEnvRange_present rfl
  | setFreq | setFmFreq => exact inOscRange_present rfl
  | envStep => exact inEnvRange_present (finishEnv_present ..)
  | oscStep | oscStepFm => exact inOscRange_present (finishOsc_present ..)

theorem transact_present (c : Command) (s : State) (xs : List HostInput) :
    transact c (s.present xs) = mapNext (·.present xs) (transact c s) := by
  cases h : decode c with
  | ok i => rw [transact_of_ok h, transact_of_ok h, exec_present]
  | error e => rw [transact_of_error h, transact_of_error h, recordFault_present, mapNext]

/-! ## Running the block on a queue of commands (R69) -/

theorem present_nil {s : State} (h : s.inbox = []) : s.present [] = s := by
  rw [State.present, h, List.append_nil, ← h]

/-- With nothing waiting before, the step accepts the first input presented and leaves the others to wait. -/
theorem step_present_cons {s : State} (h : s.inbox = []) (x : HostInput) (xs : List HostInput) :
    step (s.present (x :: xs)) = acceptInput x (s.present xs) := by
  have hinbox : (s.present (x :: xs)).inbox = x :: xs := by rw [present_inbox, h, List.nil_append]
  have hrest : { s.present (x :: xs) with inbox := xs } = s.present xs := by
    simp only [State.present, h, List.nil_append]
  rw [step_of_inbox_cons hinbox, hrest]

theorem run_succ_of_next {s t : State} (h : step s = .next t) (n : Nat) :
    Host.Core.run Sys2Proof.core (n + 1) s = Host.Core.run Sys2Proof.core n t := by
  have hcore : Sys2Proof.core.step s = .next t := h
  simp only [Host.Core.run, hcore]

theorem runCommands_cons_of_next {c : Command} {s t : State} (h : transact c s = .next t) (cs : List Command) :
    runCommands (c :: cs) s = runCommands cs t := by
  rw [runCommands, h]

theorem run_present_commands (cs : List Command) {s : State} (hinbox : s.inbox = []) :
    Host.Core.run Sys2Proof.core cs.length (s.present (cs.map .command)) = runCommands cs s := by
  induction cs generalizing s with
  | nil => exact congrArg Host.Outcome.next (present_nil hinbox)
  | cons c cs ih =>
    obtain ⟨t, ht⟩ := transact_next c s
    obtain ⟨-, hkept⟩ := nextHolds_iff.mp (transact_keeps_hostSide c s) t ht
    have hstep : step (s.present (.command c :: cs.map .command)) = .next (t.present (cs.map .command)) := by
      rw [step_present_cons hinbox, acceptInput, transact_present, ht, mapNext]
    rw [runCommands_cons_of_next ht]
    exact (run_succ_of_next hstep cs.length).trans (ih (hkept.trans hinbox))

/-! ## The obligations -/

/-- Settles O14: the only fault is a table read that answers no value, and every index a tick forms is in range. -/
theorem everyCommandReachesANextState : Obligations.EveryCommandReachesANextState :=
  exec_next

/-- Settles O18, by induction on the queue: a command leaves the inputs behind it to wait. -/
theorem commandsAreAcceptedInOrder : Obligations.CommandsAreAcceptedInOrder :=
  fun cs _ => run_present_commands cs

/-- Settles O52, by a case split on what the host presents and on the command. -/
theorem stepKeepsTheConfiguration : Obligations.StepKeepsTheConfiguration :=
  fun _ _ => step_cfg

/-- Settles O7: the step accepts the head of the queue, and accepting a transaction that decodes executes it. -/
theorem stepRunsTheDecodedCommand : Obligations.StepRunsTheDecodedCommand := by
  intro s c rest i hinbox hdecode
  rw [step_of_inbox_cons hinbox, acceptInput, transact_of_ok hdecode]

end Sys2Proof.Machine

/-! PROOFS, family `30_encoding`: the decoder and the encoder are inverse to each other, the three tests of R88 decide
between one command and a recorded fault, and the assembler encodes exactly the values it reads. -/

/-! ## The rows of the opcode map (R83) -/

namespace Sys2Proof.Machine

theorem opField_and (w v : Word) : opField (w &&& v) = opField w &&& opField v :=
  BitVec.extractLsb'_and

/-- A row of the map is one of the fifteen, by its place in it. -/
theorem exists_index_of_mem_opcodeRows {r : OpcodeRow} (hr : r ∈ opcodeRows) : ∃ n : Fin 15, r = opcodeRows[n] := by
  obtain ⟨n, hn, rfl⟩ := List.getElem_of_mem hr
  exact ⟨⟨n, hn⟩, rfl⟩

/-- Every mask covers `OP`, so a word that meets a row has the row's opcode. -/
theorem opField_mask {r : OpcodeRow} (hr : r ∈ opcodeRows) : opField r.mask = BitVec.allOnes 4 := by
  obtain ⟨n, rfl⟩ := exists_index_of_mem_opcodeRows hr
  fin_cases n <;> rfl

/-- No two rows share an opcode: looking up a row's own opcode finds that row. -/
theorem rowOf_opField_matchBits {r : OpcodeRow} (hr : r ∈ opcodeRows) : rowOf (opField r.matchBits) = some r := by
  obtain ⟨n, rfl⟩ := exists_index_of_mem_opcodeRows hr
  fin_cases n <;> rfl

theorem rowOf_of_matches {r : OpcodeRow} (hr : r ∈ opcodeRows) {w : Word} (hw : w &&& r.mask = r.matchBits) :
    rowOf (opField w) = some r := by
  have hop : opField w = opField r.matchBits := by
    rw [← hw, opField_and, opField_mask hr, BitVec.and_allOnes]
  rw [hop, rowOf_opField_matchBits hr]

theorem mem_of_rowOf {op : BitVec 4} {r : OpcodeRow} (h : rowOf op = some r) : r ∈ opcodeRows :=
  List.mem_of_find?_eq_some h

/-- Opcode 0 alone is reserved (R85). -/
theorem rowOf_eq_none_iff (op : BitVec 4) : rowOf op = none ↔ op = 0 := by
  revert op
  simp only [← Option.isNone_iff_eq_none]
  decide

/-! ## The decoder, case by case (R88) -/

theorem decode_of_reserved {c : Command} (h : opField c.cmd = 0) : decode c = .error .reservedOpcode := by
  simp only [decode, (rowOf_eq_none_iff _).mpr h]

theorem decode_of_row {c : Command} {r : OpcodeRow} (h : rowOf (opField c.cmd) = some r) :
    decode c = if c.cmd &&& r.mask = r.matchBits then .ok (r.build c) else .error (.reservedBits r.mnemonic) := by
  simp only [decode, h]

/-- A word decodes exactly when it meets a row, to what that row builds. -/
theorem decode_eq_ok_iff_row {c : Command} {i : Instr} :
    decode c = .ok i ↔ ∃ r ∈ opcodeRows, c.cmd &&& r.mask = r.matchBits ∧ r.build c = i := by
  constructor
  · intro h
    cases hrow : rowOf (opField c.cmd) with
    | none => exact nomatch (decode_of_reserved ((rowOf_eq_none_iff _).mp hrow)).symm.trans h
    | some r =>
      rw [decode_of_row hrow] at h
      split at h
      next hbits => exact ⟨r, mem_of_rowOf hrow, hbits, Except.ok.inj h⟩
      next => exact nomatch h
  · rintro ⟨r, hr, hbits, hbuild⟩
    rw [decode_of_row (rowOf_of_matches hr hbits), if_pos hbits, hbuild]

/-- The two ways a word is no command, by the first two tests of R88. -/
theorem decode_error_cases {c : Command} {e : DecodeError} (h : decode c = .error e) :
    (opField c.cmd = 0 ∧ e = .reservedOpcode) ∨
      ∃ r, rowOf (opField c.cmd) = some r ∧ c.cmd &&& r.mask ≠ r.matchBits ∧ e = .reservedBits r.mnemonic := by
  cases hrow : rowOf (opField c.cmd) with
  | none =>
    have hop := (rowOf_eq_none_iff _).mp hrow
    rw [decode_of_reserved hop] at h
    exact .inl ⟨hop, (Except.error.inj h).symm⟩
  | some r =>
    rw [decode_of_row hrow] at h
    split at h
    next => exact nomatch h
    next hbits => exact .inr ⟨r, rfl, hbits, (Except.error.inj h).symm⟩

/-- Whether a transaction is a fault, and which, is a matter of its `CMD` alone (R89). -/
theorem decode_error_of_cmd_eq {c d : Command} {e : DecodeError} (hcmd : c.cmd = d.cmd) (h : decode c = .error e) :
    decode d = .error e := by
  rcases decode_error_cases h with ⟨hop, rfl⟩ | ⟨r, hrow, hbits, rfl⟩
  · exact decode_of_reserved (hcmd ▸ hop)
  · rw [decode_of_row (hcmd ▸ hrow), ← hcmd, if_neg hbits]

/-! ## Decoding what was encoded -/

/-- The word of each command lies in its own row, at every value of its operands. -/
theorem encode_in_row (i : Instr) : Laws.EncodedInRow.Statement i := by
  cases i with
  | init => exact Laws.EncodedInRow.init _
  | gateOn => exact Laws.EncodedInRow.gateOn _
  | gateOff => exact Laws.EncodedInRow.gateOff _
  | setAtk => exact Laws.EncodedInRow.setAtk ..
  | setDec => exact Laws.EncodedInRow.setDec ..
  | setRel => exact Laws.EncodedInRow.setRel ..
  | setSus => exact Laws.EncodedInRow.setSus ..
  | selWave => exact Laws.EncodedInRow.selWave _
  | setFreq => exact Laws.EncodedInRow.setFreq ..
  | setFmFreq => exact Laws.EncodedInRow.setFmFreq ..
  | setModRatio => exact Laws.EncodedInRow.setModRatio _
  | setPw => exact Laws.EncodedInRow.setPw _
  | envStep => exact Laws.EncodedInRow.envStep ..
  | oscStep => exact Laws.EncodedInRow.oscStep _
  | oscStepFm => exact Laws.EncodedInRow.oscStepFm _

theorem encode_matches {i : Instr} {r : OpcodeRow} (h : Laws.rowBitsOf i = (r.mnemonic, r.matchBits, r.mask)) :
    (encode i).cmd &&& r.mask = r.matchBits := by
  have hrow := encode_in_row i
  rwa [Laws.EncodedInRow.Statement, h] at hrow

theorem imm12Field_eq (w : Word) : imm12Field w = (immField w).setWidth 12 := by
  ext i hi
  simp [imm12Field, immField, Nat.lt_trans hi (by decide : 12 < 16)]

theorem kindField_eq (w : Word) : kindField w = (immField w).setWidth 2 := by
  ext i hi
  simp [kindField, immField, Nat.lt_trans hi (by decide : 2 < 16)]

theorem dbgField_eq (w : Word) : dbgField w = (immField w).getLsbD 0 := by
  simp [dbgField, immField]

/-- A 12-bit operand is read back from the `IMM` it was widened to (R82). -/
theorem imm12Field_cmdWord (op : BitVec 4) (slot : BitVec 8) (cls : BitVec 1) (raw : BitVec 12) :
    imm12Field (cmdWord op slot cls (raw.setWidth 16)) = raw := by
  rw [imm12Field_eq, immField_cmdWord, BitVec.setWidth_setWidth_of_le _ (by decide), BitVec.setWidth_eq]

theorem kindField_cmdWord (op : BitVec 4) (slot : BitVec 8) (cls : BitVec 1) (kind : BitVec 2) :
    kindField (cmdWord op slot cls (kind.setWidth 16)) = kind := by
  rw [kindField_eq, immField_cmdWord, BitVec.setWidth_setWidth_of_le _ (by decide), BitVec.setWidth_eq]

theorem dbgField_cmdWord (op : BitVec 4) (slot : BitVec 8) (cls : BitVec 1) (dbg : Bool) :
    dbgField (cmdWord op slot cls (if dbg then 1 else 0)) = dbg := by
  rw [dbgField_eq, immField_cmdWord]
  cases dbg <;> rfl

@[simp] theorem ofBit_bit (cls : ParamClass) : ParamClass.ofBit cls.bit = cls := by
  cases cls <;> rfl

@[simp] theorem ofCode_code (kind : Wave) : Wave.ofCode kind.code = kind := by
  cases kind <;> rfl

/-- A row looked up by the opcode a word was built with. -/
theorem rowOf_cmdWord {op : BitVec 4} {r : OpcodeRow} (h : rowOf op = some r) (slot : BitVec 8) (cls : BitVec 1)
    (imm : BitVec 16) : rowOf (opField (cmdWord op slot cls imm)) = some r := by
  rw [opField_cmdWord, h]

/-- The row of a command's opcode is the command's own row, and it builds the command back from its fields. -/
theorem rowOf_encode (i : Instr) : ∃ r, rowOf (opField (encode i).cmd) = some r ∧
    Laws.rowBitsOf i = (r.mnemonic, r.matchBits, r.mask) ∧ r.build (encode i) = i := by
  cases i with
  | init dbg => exact ⟨_, rowOf_cmdWord rfl .., rfl, congrArg Instr.init (dbgField_cmdWord ..)⟩
  | selWave => exact ⟨_, rowOf_cmdWord rfl .., rfl, by simp [encode, kindField_cmdWord]⟩
  | setAtk | setDec | setRel | setSus | setPw =>
    exact ⟨_, rowOf_cmdWord rfl .., rfl, by simp [encode, clsField_cmdWord, imm12Field_cmdWord]⟩
  | gateOn | gateOff | setFreq | setFmFreq | setModRatio | envStep | oscStep | oscStepFm =>
    exact ⟨_, rowOf_cmdWord rfl .., rfl, by simp [encode, slotField_cmdWord, clsField_cmdWord, immField_cmdWord]⟩

theorem decode_encode (i : Instr) : decode (encode i) = .ok i := by
  obtain ⟨r, hrow, hbits, hbuild⟩ := rowOf_encode i
  exact decode_eq_ok_iff_row.mpr ⟨r, mem_of_rowOf hrow, encode_matches hbits, hbuild⟩

/-! ## Encoding what was decoded (R86) -/

/-- Two words of one row agree where the mask is set, so they are equal once they agree on two bit fields that hold
every other bit. -/
theorem eq_of_masked_fields {w v mask m : Word} (s n s' n' : Nat) (hw : w &&& mask = m) (hv : v &&& mask = m)
    (hcover : ∀ i < 32, mask.getLsbD i = true ∨ (s ≤ i ∧ i - s < n) ∨ (s' ≤ i ∧ i - s' < n'))
    (h : w.extractLsb' s n = v.extractLsb' s n) (h' : w.extractLsb' s' n' = v.extractLsb' s' n') : w = v := by
  apply BitVec.eq_of_getLsbD_eq
  intro i hi
  rcases hcover i hi with hmask | ⟨hle, hlt⟩ | ⟨hle, hlt⟩
  · have hbit := congrArg (·.getLsbD i) (hw.trans hv.symm)
    simpa [hmask] using hbit
  · have hbit := congrArg (·.getLsbD (i - s)) h
    simpa [hlt, Nat.add_sub_cancel' hle] using hbit
  · have hbit := congrArg (·.getLsbD (i - s')) h'
    simpa [hlt, Nat.add_sub_cancel' hle] using hbit

theorem ofBit_inj {a b : BitVec 1} (h : ParamClass.ofBit a = ParamClass.ofBit b) : a = b := by
  revert a b
  decide

theorem ofCode_inj {a b : BitVec 2} (h : Wave.ofCode a = Wave.ofCode b) : a = b := by
  revert a b
  decide

theorem extract_of_dbgField {w v : Word} (h : dbgField w = dbgField v) :
    w.extractLsb' 0 1 = v.extractLsb' 0 1 := by
  ext i hi
  obtain rfl : i = 0 := by omega
  simpa [dbgField] using h

/-- The operands a row builds, with its fixed bits, determine the command word. -/
def operandsDetermineWord (r : OpcodeRow) : Prop :=
  ∀ c d : Command, c.cmd &&& r.mask = r.matchBits → d.cmd &&& r.mask = r.matchBits → r.build c = r.build d →
    c.cmd = d.cmd

/-- The rows of GATEON, GATEOFF, OSCSTEP and OSCSTEPFM: the operand is `SLOT`. -/
theorem eq_of_slotRow {w v m : Word} (hw : w &&& 0xF00FFFFF#32 = m) (hv : v &&& 0xF00FFFFF#32 = m)
    (h : slotField w = slotField v) : w = v :=
  eq_of_masked_fields 20 8 20 8 hw hv (by decide) h h

/-- The rows of SETATK, SETDEC, SETREL and SETSUS: the operands are `CLS` and `IMM[11:0]`. -/
theorem eq_of_classRow {w v m : Word} (hw : w &&& 0xFFF7F000#32 = m) (hv : v &&& 0xFFF7F000#32 = m)
    (h : ParamClass.ofBit (clsField w) = .ofBit (clsField v) ∧ imm12Field w = imm12Field v) : w = v := by
  obtain ⟨hcls, himm⟩ := h
  exact eq_of_masked_fields 19 1 0 12 hw hv (by decide) (ofBit_inj hcls) himm

/-- The rows of SETFREQ and SETFMFREQ: the operands in `CMD` are `SLOT` and `IMM`. -/
theorem eq_of_freqRow {w v m a b : Word} (hw : w &&& 0xF00F0000#32 = m) (hv : v &&& 0xF00F0000#32 = m)
    (h : slotField w = slotField v ∧ immField w = immField v ∧ a = b) : w = v := by
  obtain ⟨hslot, himm, -⟩ := h
  exact eq_of_masked_fields 20 8 0 16 hw hv (by decide) hslot himm

theorem rows_operandsDetermineWord : ∀ r ∈ opcodeRows, operandsDetermineWord r := by
  simp only [opcodeRows, List.forall_mem_cons]
  refine ⟨?init, ?gateOn, ?gateOff, ?setAtk, ?setDec, ?setRel, ?setSus, ?selWave, ?setFreq, ?setFmFreq, ?setModRatio,
    ?setPw, ?envStep, ?oscStep, ?oscStepFm, nofun⟩ <;> intro c d hc hd h
  case init =>
    have hdbg := extract_of_dbgField (Instr.init.inj h)
    exact eq_of_masked_fields 0 1 0 1 hc hd (by decide) hdbg hdbg
  case gateOn => exact eq_of_slotRow hc hd (Instr.gateOn.inj h)
  case gateOff => exact eq_of_slotRow hc hd (Instr.gateOff.inj h)
  case setAtk => exact eq_of_classRow hc hd (Instr.setAtk.inj h)
  case setDec => exact eq_of_classRow hc hd (Instr.setDec.inj h)
  case setRel => exact eq_of_classRow hc hd (Instr.setRel.inj h)
  case setSus => exact eq_of_classRow hc hd (Instr.setSus.inj h)
  case selWave =>
    have hkind := ofCode_inj (Instr.selWave.inj h)
    exact eq_of_masked_fields 0 2 0 2 hc hd (by decide) hkind hkind
  case setFreq => exact eq_of_freqRow hc hd (Instr.setFreq.inj h)
  case setFmFreq => exact eq_of_freqRow hc hd (Instr.setFmFreq.inj h)
  case setModRatio =>
    have himm := Instr.setModRatio.inj h
    exact eq_of_masked_fields 0 16 0 16 hc hd (by decide) himm himm
  case setPw =>
    have himm := Instr.setPw.inj h
    exact eq_of_masked_fields 0 12 0 12 hc hd (by decide) himm himm
  case envStep =>
    obtain ⟨hslot, hcls⟩ := Instr.envStep.inj h
    exact eq_of_masked_fields 20 8 19 1 hc hd (by decide) hslot (ofBit_inj hcls)
  case oscStep => exact eq_of_slotRow hc hd (Instr.oscStep.inj h)
  case oscStepFm => exact eq_of_slotRow hc hd (Instr.oscStepFm.inj h)

/-- What a row builds is a command of that row. -/
theorem rowBitsOf_build {r : OpcodeRow} (hr : r ∈ opcodeRows) (c : Command) :
    Laws.rowBitsOf (r.build c) = (r.mnemonic, r.matchBits, r.mask) := by
  obtain ⟨n, rfl⟩ := exists_index_of_mem_opcodeRows hr
  fin_cases n <;> rfl

/-- No bit of a command word that decodes is dropped (R83). -/
theorem encode_build_cmd {r : OpcodeRow} (hr : r ∈ opcodeRows) {c : Command} (hc : c.cmd &&& r.mask = r.matchBits) :
    (encode (r.build c)).cmd = c.cmd := by
  have henc := encode_matches (rowBitsOf_build hr c)
  have hbuild : r.build (encode (r.build c)) = r.build c := by
    have hdecode := decode_encode (r.build c)
    rw [decode_of_row (rowOf_of_matches hr henc), if_pos henc] at hdecode
    exact Except.ok.inj hdecode
  exact rows_operandsDetermineWord r hr _ _ henc hc hbuild

/-! ## What a command does with `ARG` (R89) -/

/-- A command that reads `ARG` encodes the `ARG` it was built from, and every other command encodes 0. -/
theorem encode_build_arg {r : OpcodeRow} (hr : r ∈ opcodeRows) (c : Command) :
    (encode (r.build c)).arg = if (r.build c).readsArg then c.arg else 0 := by
  obtain ⟨n, rfl⟩ := exists_index_of_mem_opcodeRows hr
  fin_cases n <;> rfl

theorem build_of_not_readsArg {r : OpcodeRow} (hr : r ∈ opcodeRows) {w a : Word}
    (h : (r.build ⟨w, a⟩).readsArg = false) (b : Word) : r.build ⟨w, b⟩ = r.build ⟨w, a⟩ := by
  obtain ⟨n, rfl⟩ := exists_index_of_mem_opcodeRows hr
  fin_cases n <;> try rfl
  -- the rows of SETFREQ and SETFMFREQ are left, and they read `ARG`
  all_goals exact nomatch h

/-- A command that does not read `ARG` is decoded from its word under any `ARG`. -/
theorem decode_of_not_readsArg {w a : Word} {i : Instr} (h : decode ⟨w, a⟩ = .ok i) (hread : i.readsArg = false)
    (b : Word) : decode ⟨w, b⟩ = .ok i := by
  obtain ⟨r, hr, hbits, rfl⟩ := decode_eq_ok_iff_row.mp h
  exact decode_eq_ok_iff_row.mpr ⟨r, hr, hbits, build_of_not_readsArg hr hread b⟩

/-- A transaction decodes to `i` exactly when it is the encoding of `i`, up to an `ARG` that `i` does not read. -/
theorem decode_eq_ok_iff_encode {c : Command} {i : Instr} :
    decode c = .ok i ↔ encode i = ⟨c.cmd, if i.readsArg then c.arg else 0⟩ := by
  constructor
  · intro h
    obtain ⟨r, hr, hbits, rfl⟩ := decode_eq_ok_iff_row.mp h
    rw [← encode_build_cmd hr hbits, ← encode_build_arg hr]
  · intro h
    have hdecode := h ▸ decode_encode i
    cases hread : i.readsArg with
    | true => simpa only [hread, if_true] using hdecode
    | false => exact decode_of_not_readsArg hdecode hread c.arg

theorem encode_cmd_of_decode {c : Command} {i : Instr} (h : decode c = .ok i) : (encode i).cmd = c.cmd := by
  rw [decode_eq_ok_iff_encode.mp h]

/-- SETFREQ and SETFMFREQ are the commands that read `ARG`. -/
theorem readsArg_iff (i : Instr) :
    i.readsArg = true ↔ opField (encode i).cmd = 0x9 ∨ opField (encode i).cmd = 0xA := by
  cases i <;> simp [Instr.readsArg, encode, opField_cmdWord]

theorem decode_arg_irrelevant {w : Word} (h9 : opField w ≠ 0x9) (hA : opField w ≠ 0xA) (a b : Word) :
    decode ⟨w, a⟩ = decode ⟨w, b⟩ := by
  cases h : decode ⟨w, a⟩ with
  | error e => exact (decode_error_of_cmd_eq (c := ⟨w, a⟩) (d := ⟨w, b⟩) rfl h).symm
  | ok i =>
    have hread : i.readsArg = false := by
      rw [Bool.eq_false_iff, Ne, readsArg_iff, encode_cmd_of_decode h]
      exact not_or.mpr ⟨h9, hA⟩
    exact (decode_of_not_readsArg h hread b).symm

/-! ## The fault of a word, by the tests of R88 in their order (R171, R173) -/

/-- The slot range of an opcode is that of its command's row (R83, R87). -/
theorem slotRangeOk_encode (maxVoice : Nat) (i : Instr) :
    slotRangeOk maxVoice (opField (encode i).cmd) (slotField (encode i).cmd) = i.wellFormed maxVoice := by
  cases i <;> simp [slotRangeOk, encode, opField_cmdWord, slotField_cmdWord, Instr.wellFormed, Instr.slotOperand]

theorem faultClass_of_ok {c : Command} {i : Instr} (h : decode c = .ok i) (maxVoice : Nat) :
    faultClass maxVoice c.cmd = if i.wellFormed maxVoice then none else some .slot := by
  have hcmd := encode_cmd_of_decode h
  obtain ⟨r, hr, hbits, -⟩ := decode_eq_ok_iff_row.mp h
  simp only [faultClass, rowOf_of_matches hr hbits, if_pos hbits, ← slotRangeOk_encode, hcmd]

theorem faultClass_of_error {c : Command} {e : DecodeError} (h : decode c = .error e) (maxVoice : Nat) :
    faultClass maxVoice c.cmd = some (decodeErrorKind e) := by
  rcases decode_error_cases h with ⟨hop, rfl⟩ | ⟨r, hrow, hbits, rfl⟩
  · simp only [faultClass, (rowOf_eq_none_iff _).mpr hop, decodeErrorKind]
  · simp only [faultClass, hrow, if_neg hbits, decodeErrorKind]

/-- A word the tests accept is that of a command whose slot is in range. -/
theorem decode_of_faultClass_none {c : Command} {maxVoice : Nat} (h : faultClass maxVoice c.cmd = none) :
    ∃ i, decode c = .ok i ∧ i.wellFormed maxVoice = true := by
  cases hdecode : decode c with
  | error e => exact nomatch (faultClass_of_error hdecode maxVoice).symm.trans h
  | ok i =>
    rw [faultClass_of_ok hdecode] at h
    exact ⟨i, rfl, by simpa using h⟩

/-! ## A command with its slot out of range, and one with its slot in range (R87, R170) -/

theorem exec_of_not_wellFormed {i : Instr} {s : State} (h : i.wellFormed s.cfg.maxVoice = false) :
    exec i s = .next (s.recordFault .slot (encode i).cmd) := by
  cases i with
  | init | setAtk | setDec | setRel | setSus | selWave | setModRatio | setPw => exact nomatch h
  | gateOn | gateOff | envStep => exact inEnvRange_of_lt (Nat.lt_of_not_le (of_decide_eq_false h)) _
  | setFreq | setFmFreq | oscStep | oscStepFm =>
    exact inOscRange_of_le (Nat.le_of_not_lt (of_decide_eq_false h)) _

/-- A word that faults, of whatever kind, does nothing but record its fault, for the word as issued (R172). -/
theorem transact_of_faultClass_some {c : Command} {s : State} {k : FaultKind}
    (h : faultClass s.cfg.maxVoice c.cmd = some k) : transact c s = .next (s.recordFault k c.cmd) := by
  cases hdecode : decode c with
  | error e =>
    obtain rfl := Option.some.inj ((faultClass_of_error hdecode _).symm.trans h)
    exact transact_of_error hdecode s
  | ok i =>
    rw [faultClass_of_ok hdecode] at h
    split at h
    next => exact nomatch h
    next hslot =>
      obtain rfl := Option.some.inj h
      rw [transact_of_ok hdecode, exec_of_not_wellFormed (Bool.eq_false_iff.mpr hslot), encode_cmd_of_decode hdecode]

theorem recordFault_eq (s : State) (k : FaultKind) (w : Word) :
    s.recordFault k w = { s with
      status := (s.recordFault k w).status, faultCmd := (s.recordFault k w).faultCmd, responses := 0 :: s.responses } := by
  unfold State.recordFault
  split <;> rfl

/-- From `s` to `t` the fault registers are kept. -/
def faultRegsKept (s t : State) : Prop :=
  t.status = s.status ∧ t.faultCmd = s.faultCmd

/-- A command with its slot in range reaches its effect. -/
theorem nextHolds_inEnvRange_of_wellFormed {P : State → Prop} {i : Instr} {slot : BitVec 8} {s : State} {r : Result}
    (h : decide (slot.toNat ≤ s.cfg.maxVoice) = true) (hr : nextHolds P r) : nextHolds P (inEnvRange i slot s r) :=
  (inEnvRange_of_le (of_decide_eq_true h) r).symm ▸ hr

theorem nextHolds_inOscRange_of_wellFormed {P : State → Prop} {i : Instr} {slot : BitVec 8} {s : State} {r : Result}
    (h : decide (slot.toNat < s.cfg.maxVoice) = true) (hr : nextHolds P r) : nextHolds P (inOscRange i slot s r) :=
  (inOscRange_of_lt (of_decide_eq_true h) r).symm ▸ hr

theorem exec_keeps_faultRegs {i : Instr} {s : State} (h : i.wellFormed s.cfg.maxVoice = true) :
    nextHolds (faultRegsKept s) (exec i s) := by
  cases i with
  | init | selWave | setModRatio | setPw => exact ⟨rfl, rfl⟩
  | setAtk | setDec | setRel | setSus => exact ⟨setEp_status .., setEp_faultCmd ..⟩
  | gateOn | gateOff => exact nextHolds_inEnvRange_of_wellFormed h ⟨rfl, rfl⟩
  | setFreq | setFmFreq => exact nextHolds_inOscRange_of_wellFormed h ⟨rfl, rfl⟩
  | envStep => exact nextHolds_inEnvRange_of_wellFormed h (nextHolds_finishEnv fun _ _ => ⟨rfl, rfl⟩)
  | oscStep | oscStepFm => exact nextHolds_inOscRange_of_wellFormed h (nextHolds_finishOsc fun _ _ => ⟨rfl, rfl⟩)

/-- A word that passes the three tests executes its command to a next state and records nothing. -/
theorem transact_of_faultClass_none {c : Command} {s : State} (h : faultClass s.cfg.maxVoice c.cmd = none) :
    ∃ i t, decode c = .ok i ∧ i.wellFormed s.cfg.maxVoice = true ∧ transact c s = exec i s ∧ exec i s = .next t ∧
      faultRegsKept s t := by
  obtain ⟨i, hdecode, hwf⟩ := decode_of_faultClass_none h
  obtain ⟨t, ht⟩ := exec_next i s
  exact ⟨i, t, hdecode, hwf, transact_of_ok hdecode s, ht, nextHolds_iff.mp (exec_keeps_faultRegs hwf) t ht⟩

/-! ## The response (R80, R84) -/

/-- From `s` to `t` one response is returned, and it is 0 unless the word `w` is that of a step command. -/
def respondsOnce (w : Word) (s t : State) : Prop :=
  ∃ r, t.responses = r :: s.responses ∧ (r ≠ 0 → opField w = 0xD ∨ opField w = 0xE ∨ opField w = 0xF)

theorem respondsOnce_zero {w : Word} {s t : State} (h : t.responses = 0 :: s.responses) : respondsOnce w s t :=
  ⟨0, h, fun hne => absurd rfl hne⟩

theorem exec_respondsOnce (i : Instr) (s : State) : nextHolds (respondsOnce (encode i).cmd s) (exec i s) := by
  have hslot : ∀ w, respondsOnce (encode i).cmd s (s.recordFault .slot w) := fun w =>
    respondsOnce_zero (recordFault_responses ..)
  cases i with
  | init | selWave | setModRatio | setPw => exact respondsOnce_zero rfl
  | setAtk | setDec | setRel | setSus => exact respondsOnce_zero (congrArg (0 :: ·) (setEp_responses ..))
  | gateOn | gateOff => exact nextHolds_inEnvRange (hslot _) fun _ => respondsOnce_zero rfl
  | setFreq | setFmFreq => exact nextHolds_inOscRange (hslot _) fun _ => respondsOnce_zero rfl
  | envStep =>
    exact nextHolds_inEnvRange (hslot _) fun _ => nextHolds_finishEnv fun _ _ =>
      ⟨_, rfl, fun _ => .inl (opField_cmdWord ..)⟩
  | oscStep =>
    exact nextHolds_inOscRange (hslot _) fun _ => nextHolds_finishOsc fun _ _ =>
      ⟨_, rfl, fun _ => .inr (.inl (opField_cmdWord ..))⟩
  | oscStepFm =>
    exact nextHolds_inOscRange (hslot _) fun _ => nextHolds_finishOsc fun _ _ =>
      ⟨_, rfl, fun _ => .inr (.inr (opField_cmdWord ..))⟩

/-! ## The lines of the assembler (R95 to R97) -/

/-- A field whose operand has a value passes that value on if it fits, and refuses the line otherwise. -/
theorem fieldOf_bind {α : Type} {n v : Nat} {syms : Symbols} {x : List Char} (hx : valueOf syms x = .ok v)
    (f : BitVec n → Except AsmError α) :
    (fieldOf n syms x >>= f) = if v < 2 ^ n then f (.ofNat n v) else .error .tooLarge := by
  rw [fieldOf_of_valueOf hx]
  split <;> rfl

theorem ok_bind {α β : Type} (x : α) (f : α → Except AsmError β) : (Except.ok x >>= f) = f x := rfl

theorem error_bind {α β : Type} (e : AsmError) (f : α → Except AsmError β) : (Except.error e >>= f) = .error e := rfl

/-- A command or pseudo-instruction line, as one bind: the commands it expands to are added. -/
theorem assembleWord_eq_bind {maxVoice : Nat} {a : AsmState} {k : Keyword} {ops : List (List Char)}
    (hk : k ≠ .rept ∧ k ≠ .endr ∧ k ≠ .equ ∧ k ≠ .word) :
    assembleWord maxVoice a k ops = (instrsOf maxVoice a.syms k ops >>= fun is => .ok (a.emit is)) := by
  rw [assembleWord_of_instrsOf hk]
  cases instrsOf maxVoice a.syms k ops <;> rfl

/-- A line with one operand that is a value assembles to the command with exactly that value. -/
theorem assembleWord_of_field {maxVoice : Nat} {a : AsmState} {k : Keyword} {ops : List (List Char)} {x : List Char}
    {n v : Nat} {build : BitVec n → Instr} (hk : k ≠ .rept ∧ k ≠ .endr ∧ k ≠ .equ ∧ k ≠ .word)
    (hline : instrsOf maxVoice a.syms k ops = (fieldOf n a.syms x >>= fun b => .ok [build b]))
    (hx : valueOf a.syms x = .ok v) :
    assembleWord maxVoice a k ops =
      if v < 2 ^ n then .ok (a.emit [build (.ofNat n v)]) else .error .tooLarge := by
  rw [assembleWord_eq_bind hk, hline, fieldOf_bind hx]
  split <;> rfl

/-- A line of a slot, a pitch and a timestamp: SETFREQ and SETFMFREQ. -/
theorem assembleWord_of_freqFields {maxVoice : Nat} {a : AsmState} {k : Keyword} {x y z : List Char}
    {slot pitch ts : Nat} {build : BitVec 8 → BitVec 16 → BitVec 32 → Instr}
    (hk : k ≠ .rept ∧ k ≠ .endr ∧ k ≠ .equ ∧ k ≠ .word)
    (hline : instrsOf maxVoice a.syms k [x, y, z] = (fieldOf 8 a.syms x >>= fun s => fieldOf 16 a.syms y >>= fun p =>
      fieldOf 32 a.syms z >>= fun t => .ok [build s p t]))
    (hx : valueOf a.syms x = .ok slot) (hy : valueOf a.syms y = .ok pitch) (hz : valueOf a.syms z = .ok ts) :
    assembleWord maxVoice a k [x, y, z] =
      if slot < 2 ^ 8 ∧ pitch < 2 ^ 16 ∧ ts < 2 ^ 32 then
        .ok (a.emit [build (.ofNat 8 slot) (.ofNat 16 pitch) (.ofNat 32 ts)])
      else .error .tooLarge := by
  rw [assembleWord_eq_bind hk, hline]
  simp only [fieldOf_bind hx, fieldOf_bind hy, fieldOf_bind hz, ite_and]
  split_ifs <;> rfl

/-- `.word` with one value leaves `ARG` 0 (R97). -/
theorem assembleWord_word_one {maxVoice : Nat} {a : AsmState} {x : List Char} {v : Nat}
    (hx : valueOf a.syms x = .ok v) : assembleWord maxVoice a .word [x] =
      if v < 4294967296 then .ok { a with out := a.out ++ [⟨.ofNat 32 v, 0⟩] } else .error .tooLarge :=
  fieldOf_bind (n := 32) hx _

theorem assembleWord_word_two {maxVoice : Nat} {a : AsmState} {x y : List Char} {v w : Nat}
    (hx : valueOf a.syms x = .ok v) (hy : valueOf a.syms y = .ok w) : assembleWord maxVoice a .word [x, y] =
      if v < 4294967296 ∧ w < 4294967296 then .ok { a with out := a.out ++ [⟨.ofNat 32 v, .ofNat 32 w⟩] }
      else .error .tooLarge := by
  simp only [assembleWord, fieldOf_bind hx, fieldOf_bind hy, ite_and]
  rfl

/-- The four waveform names, in any case (R95). -/
theorem kindOf_of_name {syms : Symbols} {x : List Char} {w : Wave}
    (h : (lowerCase x, w) ∈ [("saw".toList, Wave.saw), ("sine".toList, .sine), ("tri".toList, .triangle),
      ("square".toList, .square)]) : kindOf syms x = .ok w := by
  simp only [List.mem_cons, Prod.mk.injEq, List.not_mem_nil, or_false] at h
  rcases h with ⟨h, rfl⟩ | ⟨h, rfl⟩ | ⟨h, rfl⟩ | ⟨h, rfl⟩ <;> simp [kindOf, h]

/-- Any other spelling of a waveform is read as a value of two bits. -/
theorem kindOf_of_not_name {syms : Symbols} {x : List Char}
    (h : lowerCase x ∉ ["saw".toList, "sine".toList, "tri".toList, "square".toList]) :
    kindOf syms x = (fieldOf 2 syms x).map Wave.ofCode := by
  simp only [List.mem_cons, List.not_mem_nil, or_false, not_or] at h
  obtain ⟨hsaw, hsine, htri, hsquare⟩ := h
  rw [kindOf, if_neg hsaw, if_neg hsine, if_neg htri, if_neg hsquare]

theorem assembleWord_selwave_value {maxVoice : Nat} {a : AsmState} {x : List Char} {v : Nat}
    (h : lowerCase x ∉ ["saw".toList, "sine".toList, "tri".toList, "square".toList])
    (hx : valueOf a.syms x = .ok v) : assembleWord maxVoice a .selwave [x] =
      if v < 4 then .ok (a.emit [.selWave (.ofCode (.ofNat 2 v))]) else .error .tooLarge := by
  refine assembleWord_of_field (n := 2) (build := fun b => .selWave (.ofCode b)) (by decide) ?_ hx
  simp only [instrsOf, kindOf_of_not_name h]
  cases fieldOf 2 a.syms x <;> rfl

/-- INIT's operand is one bit, which is set exactly when the value is 1. -/
theorem assembleWord_init_value {maxVoice : Nat} {a : AsmState} {x : List Char} {v : Nat}
    (hx : valueOf a.syms x = .ok v) : assembleWord maxVoice a .init [x] =
      if v < 2 then .ok (a.emit [.init (v == 1)]) else .error .tooLarge := by
  rw [assembleWord_of_field (n := 1) (build := fun b => .init (b == 1#1)) (by decide) rfl hx]
  by_cases hfits : v < 2
  · obtain rfl | rfl : v = 0 ∨ v = 1 := by omega
    all_goals rfl
  · exact (if_neg hfits).trans (if_neg hfits).symm

/-- A name that is no number stands for the value of its latest definition. -/
theorem valueOf_of_symbol {syms : Symbols} {x name : List Char} {v : Nat} (hnumber : numberOf x = none)
    (hsym : syms.find? (fun p => p.1 == x) = some (name, v)) : valueOf syms x = .ok v := by
  simp only [valueOf, hnumber, hsym]

/-! ## The obligations -/

/-- Settles O1: the word of a command lies in the command's row, which builds the command back from its fields. -/
theorem decodeOfEncode : Obligations.DecodeOfEncode :=
  decode_encode

/-- Settles O2: the fixed bits of a row and the operands it builds determine the word. -/
theorem encodeOfDecode : Obligations.EncodeOfDecode :=
  fun _ _ => decode_eq_ok_iff_encode.mp

/-- Settles O3, by the first two tests of R88 in their order. -/
theorem everyWordIsOneCommandOrAFault : Obligations.EveryWordIsOneCommandOrAFault := by
  intro c
  cases hdecode : decode c with
  | ok i =>
    have hunique : ∀ j, encode j = ⟨c.cmd, if j.readsArg then c.arg else 0⟩ → j = i := fun j hj =>
      Except.ok.inj ((decode_eq_ok_iff_encode.mpr hj).symm.trans hdecode)
    exact .inr (.inr ⟨i, rfl, encode_cmd_of_decode hdecode, hunique⟩)
  | error e =>
    rcases decode_error_cases hdecode with ⟨hop, rfl⟩ | ⟨r, hrow, -, rfl⟩
    · exact .inl ⟨hop, rfl⟩
    · have hop : opField c.cmd ≠ 0 := fun h => nomatch ((rowOf_eq_none_iff _).mpr h).symm.trans hrow
      have hnone : ∀ i, (encode i).cmd ≠ c.cmd := fun i hcmd =>
        nomatch (decode_encode i).symm.trans (decode_error_of_cmd_eq hcmd.symm hdecode)
      exact .inr (.inl ⟨hop, ⟨r.mnemonic, rfl⟩, hnone⟩)

/-- Settles O6: a faulting word records the same fault under every `ARG`, and of the commands only the two that read
`ARG` decode to different commands under different ones. -/
theorem argReadOnlyByFrequencyCommands : Obligations.ArgReadOnlyByFrequencyCommands := by
  refine ⟨fun cmd a b s h9 hA => ?_, fun cmd a b s k hfault => ?_, fun cmd a s hnone => ?_⟩
  · simp only [transact, decode_arg_irrelevant h9 hA a b]
  · rw [transact_of_faultClass_some (c := ⟨cmd, a⟩) hfault, transact_of_faultClass_some (c := ⟨cmd, b⟩) hfault]
  · obtain ⟨i, t, -, -, htransact, hexec, hkept⟩ := transact_of_faultClass_none (c := ⟨cmd, a⟩) hnone
    exact ⟨t, htransact.trans hexec, hkept⟩

/-- Settles O12: the tests accept the word of a well formed command, which reaches its effect and not the record. -/
theorem acceptedWordExecutesWithoutFault : Obligations.AcceptedWordExecutesWithoutFault :=
  fun _ _ => transact_of_faultClass_none

/-- Settles O13: the third test of R88 answers the record of `ERR_SLOT`, whose bit of `STATUS` is 4. -/
theorem slotOutOfRangeRecordsErrSlot : Obligations.SlotOutOfRangeRecordsErrSlot :=
  fun s i h => ⟨s.recordFault .slot (encode i).cmd, exec_of_not_wellFormed h, readStatus_recordFault ..,
    recordFault_faultCmd .., recordFault_eq ..⟩

/-- Settles O15: an idle step, a reset pulse and a transaction each answer a next state. -/
theorem everyStepReachesANextState : Obligations.EveryStepReachesANextState := by
  intro s
  cases hinbox : s.inbox with
  | nil => exact ⟨s, step_of_inbox_nil hinbox⟩
  | cons x rest =>
    rw [step_of_inbox_cons hinbox]
    cases x with
    | reset => exact ⟨_, rfl⟩
    | command c => exact transact_next c _

/-- Settles O17: a word that faults returns 0, and a word that does not returns its command's response. -/
theorem oneResponsePerCommand : Obligations.OneResponsePerCommand := by
  intro c s t ht
  obtain ⟨-, hinbox⟩ := nextHolds_iff.mp (transact_keeps_hostSide c s) t ht
  cases hfault : faultClass s.cfg.maxVoice c.cmd with
  | some k =>
    rw [transact_of_faultClass_some hfault] at ht
    obtain rfl := Host.Outcome.next.inj ht
    exact ⟨0, recordFault_responses .., hinbox, fun hne => absurd rfl hne⟩
  | none =>
    obtain ⟨i, hdecode, -⟩ := decode_of_faultClass_none hfault
    rw [transact_of_ok hdecode] at ht
    obtain ⟨r, hresponses, hstep⟩ := nextHolds_iff.mp (exec_respondsOnce i s) t ht
    exact ⟨r, hresponses, hinbox, fun hne => ⟨rfl, encode_cmd_of_decode hdecode ▸ hstep hne⟩⟩

/-- Settles O4: the opcode of a word finds every row the word meets. -/
theorem opcodeRowsAreDisjoint : Obligations.OpcodeRowsAreDisjoint := by
  intro w r q hr hq hwr hwq
  have hsame : some r = some q := (rowOf_of_matches hr hwr).symm.trans (rowOf_of_matches hq hwq)
  exact congrArg OpcodeRow.mnemonic (Option.some.inj hsame)

/-- Settles O5: the fifteen words are the encodings of their commands, and the three fault examples fail the first or
the second test. -/
theorem encodingExamplesDecode : Obligations.EncodingExamplesDecode :=
  ⟨decode_encode (.init false), decode_encode (.init true), decode_encode (.gateOn 3), decode_encode (.gateOff 4),
    decode_encode (.setAtk .voice 4095), decode_encode (.setAtk .filter 5), decode_encode (.setSus .voice 2048),
    decode_encode (.selWave .square), decode_encode (.setFreq 0 440 1000), decode_encode (.setFmFreq 1 440 7),
    decode_encode (.setModRatio 512), decode_encode (.setPw 1024), decode_encode (.envStep 4 .filter),
    decode_encode (.oscStep 2), decode_encode (.oscStepFm 1), rfl, rfl, rfl⟩

/-- Settles O54: each operand is read by a field of R82's width, which passes on the value or refuses it. -/
theorem assemblerNeverTruncates : Obligations.AssemblerNeverTruncates := by
  intro maxVoice a
  refine ⟨rfl, fun x v hx => ?oneValue, fun x w hname => ?name, fun c x cls v hc hx => ?classAndValue,
    fun x y v w hx hy => assembleWord_word_two hx hy, fun x y z slot pitch ts hx hy hz => ?freq⟩
  case oneValue =>
    exact ⟨assembleWord_init_value hx, assembleWord_of_field (n := 8) (by decide) rfl hx,
      assembleWord_of_field (n := 8) (by decide) rfl hx, assembleWord_of_field (n := 8) (by decide) rfl hx,
      assembleWord_of_field (n := 8) (by decide) rfl hx, assembleWord_of_field (n := 16) (by decide) rfl hx,
      assembleWord_of_field (n := 12) (by decide) rfl hx, fun hname => assembleWord_selwave_value hname hx,
      assembleWord_word_one hx⟩
  case name =>
    rw [assembleWord_eq_bind (by decide), instrsOf, kindOf_of_name hname]
    rfl
  case classAndValue =>
    refine ⟨assembleWord_of_field (n := 12) (by decide) ?_ hx, assembleWord_of_field (n := 12) (by decide) ?_ hx,
      assembleWord_of_field (n := 12) (by decide) ?_ hx, assembleWord_of_field (n := 12) (by decide) ?_ hx,
      assembleWord_of_field (n := 8) (build := fun s => .envStep s cls) (by decide) ?_ hx⟩ <;>
    · simp only [instrsOf, hc]
      rfl
  case freq =>
    exact ⟨assembleWord_of_freqFields (by decide) rfl hx hy hz, assembleWord_of_freqFields (by decide) rfl hx hy hz⟩

/-- Settles O55: an operand that the expansion reads twice has the same outcome both times, and `FILTER_SLOT` reads as
`MAXVOICE`. -/
theorem pseudoInstructionsExpand : Obligations.PseudoInstructionsExpand := by
  intro maxVoice a
  refine ⟨fun s c => ?tick, fun s c => ?tickfm, fun c x d s r => ?setadsr, fun hmax hsym => ?filter⟩
  case tick | tickfm =>
    cases hslot : fieldOf 8 a.syms s with
    | error e => simp [assembleWord_eq_bind, instrsOf, hslot, error_bind]
    | ok slot => simp [assembleWord_eq_bind, instrsOf, hslot, ok_bind]
  case setadsr =>
    cases hcls : classOf c with
    | error e => simp [assembleWord_eq_bind, instrsOf, hcls, error_bind]
    | ok cls => simp [assembleWord_eq_bind, instrsOf, hcls, ok_bind]
  case filter =>
    have hvalue := valueOf_of_symbol (x := "FILTER_SLOT".toList) (by decide) hsym
    have hfits : maxVoice < 2 ^ 8 := Nat.lt_succ_of_le hmax
    have hslot := (fieldOf_of_valueOf (n := 8) hvalue).trans (if_pos hfits)
    have hclass : classOf "filter".toList = .ok .filter := by decide
    constructor
    · rw [assembleWord_eq_bind (by decide), assembleWord_eq_bind (by decide), instrsOf, instrsOf, hslot, hclass]
      rfl
    · rw [assembleWord_eq_bind (by decide), assembleWord_eq_bind (by decide), instrsOf, instrsOf, hslot]
      rfl

end Sys2Proof.Machine

/-! PROOFS, family `40_envelope_control`: what GATEON, GATEOFF and SETSUS write and leave alone, the shared filter
envelope, the clamp of the rates, the release from GATEOFF on, and what SETFMFREQ stores. -/

/-! ## The entries GATEON, GATEOFF and a tick write -/

namespace Sys2Proof.Machine

/-- GATEON's write of one entry, as a change of that entry and of no other. -/
theorem attackSlot_getElem? (s : State) (i j : Nat) :
    (s.attackSlot i).env[j]? = if j = i then (s.env[j]?).map EnvSlot.attacked else s.env[j]? := by
  rw [attackSlot_env]
  split
  next heq =>
    subst heq
    rcases Nat.lt_or_ge j s.env.length with hj | hj
    · rw [List.getElem?_set_self hj, env_getElem? hj, Option.map_some]
    · simp [hj]
  next hne => rw [List.getElem?_set_ne (Ne.symm hne)]

/-- A write of the envelope file alone is framed by the entries it may change. -/
theorem onlyEnvWritten_of_env {touched : Nat → Prop} {s : State} {file : List EnvSlot} (r : Word)
    (hlength : file.length = s.env.length) (hfile : ∀ j, ¬ touched j → file[j]? = s.env[j]?) :
    onlyEnvWritten touched s (({ s with env := file } : State).respond r) :=
  ⟨rfl, rfl, rfl, rfl, rfl, rfl, rfl, rfl, rfl, rfl, hlength, hfile⟩

/-- The frame of the commands that write one envelope entry (R103, R120). -/
theorem onlyEnvWritten_setEnvAt_respond (s : State) (i : Nat) (e : EnvSlot) (r : Word) :
    onlyEnvWritten (fun j => j = i) s ((s.setEnvAt i e).respond r) :=
  onlyEnvWritten_of_env r (List.length_set ..) fun _ hj => List.getElem?_set_ne (Ne.symm hj)

/-- The frame of GATEON (R102). -/
theorem onlyEnvWritten_attackSlots_respond (s : State) (i k : Nat) (r : Word) :
    onlyEnvWritten (fun j => j = i ∨ j = k) s (((s.attackSlot i).attackSlot k).respond r) := by
  refine onlyEnvWritten_of_env r (by simp) fun j hj => ?_
  obtain ⟨hji, hjk⟩ := not_or.mp hj
  calc ((s.attackSlot i).attackSlot k).env[j]? = (s.attackSlot i).env[j]? := by rw [attackSlot_getElem?, if_neg hjk]
    _ = s.env[j]? := by rw [attackSlot_getElem?, if_neg hji]

/-- The frame of the commands that write one oscillator entry (R141, R142, R152). -/
theorem onlyOscWritten_setOscAt_respond (s : State) (i : Nat) (o : OscSlot) (r : Word) :
    onlyOscWritten i s ((s.setOscAt i o).respond r) :=
  ⟨rfl, rfl, rfl, rfl, rfl, rfl, rfl, rfl, rfl, rfl, List.length_set .., fun _ hj => List.getElem?_set_ne (Ne.symm hj)⟩

/-- The entry just written is the one read, where the file held one before. -/
theorem setEnvAt_getElem?_self {s : State} {i : Nat} {e : EnvSlot} (h : s.env[i]? = some e) (e' : EnvSlot) :
    (s.setEnvAt i e').env[i]? = some e' :=
  List.getElem?_set_self (List.getElem?_eq_some_iff.mp h).1

/-! ## The commands of this family on a slot in range -/

theorem exec_gateOn {s : State} {slot : BitVec 8} (h : slot.toNat ≤ s.cfg.maxVoice) :
    exec (.gateOn slot) s = .next (((s.attackSlot slot.toNat).attackSlot s.cfg.filterSlot).respond 0) :=
  inEnvRange_of_le h _

theorem exec_gateOff {s : State} {slot : BitVec 8} (h : slot.toNat ≤ s.cfg.maxVoice) :
    exec (.gateOff slot) s = .next ((s.setEnvAt slot.toNat (s.envAt slot.toNat).released).respond 0) :=
  inEnvRange_of_le h _

theorem exec_setFmFreq {s : State} {slot : BitVec 8} (h : slot.toNat < s.cfg.maxVoice) (pitch : BitVec 16) (ts : Word) :
    exec (.setFmFreq slot pitch ts) s =
      .next ((s.setOscAt slot.toNat (setFmFreqSlot s.cfg s.modRatio pitch ts (s.oscAt slot.toNat))).respond 0) :=
  inOscRange_of_lt h _

/-- ENVSTEP writes back the entry the tick computed and returns its output (R84, R120). -/
theorem exec_envStep {s : State} {slot : BitVec 8} {cls : ParamClass} {e : EnvSlot} (h : slot.toNat ≤ s.cfg.maxVoice)
    (htick : envTick s.cfg (s.ep cls) (s.envAt slot.toNat) = .ok e) :
    exec (.envStep slot cls) s = .next ((s.setEnvAt slot.toNat e).respond (amplitudeResponse e.output)) := by
  have hexec : exec (.envStep slot cls) s = s.finishEnv slot.toNat (envTick s.cfg (s.ep cls) (s.envAt slot.toNat)) :=
    inEnvRange_of_le h _
  rw [hexec, htick, State.finishEnv]

/-- ENVSTEP of a slot the file holds: a next state whose entry is the tick of the old one. -/
theorem exec_envStep_next {s : State} {slot : BitVec 8} (cls : ParamClass) (h : slot.toNat ≤ s.cfg.maxVoice)
    (hfile : slot.toNat < s.env.length) :
    ∃ t e, envTick s.cfg (s.ep cls) (s.envAt slot.toNat) = .ok e ∧ exec (.envStep slot cls) s = .next t ∧
      t.envAt slot.toNat = e ∧ t.responses = amplitudeResponse e.output :: s.responses ∧ t.cfg = s.cfg ∧
      t.env.length = s.env.length := by
  obtain ⟨e, htick⟩ := envTick_ok s.cfg (s.ep cls) (s.envAt slot.toNat)
  exact ⟨_, e, htick, exec_envStep h htick, envAt_setEnvAt_self hfile e, rfl, rfl, List.length_set ..⟩

theorem toNat_amplitudeResponse (output : BitVec 16) : (amplitudeResponse output).toNat = output.toNat :=
  BitVec.toNat_setWidth_of_le (by decide)

/-- A sustain level goes through the output to the response word unchanged (R84, R125). -/
theorem amplitudeResponse_sustainOutput (level : BitVec 12) :
    amplitudeResponse (level.zeroExtend 16) = level.zeroExtend 32 :=
  BitVec.setWidth_setWidth (by decide)

/-! ## Which envelope entries a command may change (R101 to R103, R110, R120) -/

/-- The envelope entries a command may write: INIT every one, GATEON its slot and the filter's, GATEOFF and ENVSTEP
their slot. -/
def mayWriteEnv (c : Config) : Instr → Nat → Prop
  | .init _, _ => True
  | .gateOn slot, j => j = slot.toNat ∨ j = c.filterSlot
  | .gateOff slot, j => j = slot.toNat
  | .envStep slot _, j => j = slot.toNat
  | .setAtk .., _ => False
  | .setDec .., _ => False
  | .setRel .., _ => False
  | .setSus .., _ => False
  | .selWave _, _ => False
  | .setFreq .., _ => False
  | .setFmFreq .., _ => False
  | .setModRatio _, _ => False
  | .setPw _, _ => False
  | .oscStep _, _ => False
  | .oscStepFm _, _ => False

theorem envAt_congr {s t : State} (h : t.env = s.env) (j : Nat) : t.envAt j = s.envAt j := by
  rw [State.envAt, h, State.envAt]

/-- A command changes no envelope entry but those it may write, whether it takes effect or records `ERR_SLOT`. -/
theorem exec_keeps_envAt {i : Instr} {s : State} {j : Nat} (h : ¬ mayWriteEnv s.cfg i j) :
    nextHolds (fun t => t.envAt j = s.envAt j) (exec i s) := by
  have hslot : ∀ w, (s.recordFault .slot w).envAt j = s.envAt j := fun _ => envAt_congr (recordFault_env ..) j
  cases i with
  | init => exact absurd trivial h
  | gateOn slot =>
    obtain ⟨hown, hfilter⟩ := not_or.mp h
    refine nextHolds_inEnvRange (hslot _) fun _ => ?_
    exact (envAt_setEnvAt_ne hfilter _).trans (envAt_setEnvAt_ne hown _)
  | gateOff => exact nextHolds_inEnvRange (hslot _) fun _ => envAt_setEnvAt_ne h _
  | envStep =>
    exact nextHolds_inEnvRange (hslot _) fun _ => nextHolds_finishEnv fun _ _ => envAt_setEnvAt_ne h _
  | setAtk | setDec | setRel | setSus => exact envAt_congr (setEp_env ..) j
  | selWave | setModRatio | setPw => rfl
  | setFreq | setFmFreq => exact nextHolds_inOscRange (hslot _) fun _ => rfl
  | oscStep | oscStepFm => exact nextHolds_inOscRange (hslot _) fun _ => nextHolds_finishOsc fun _ _ => rfl

/-! ## The release from GATEOFF on (R132) -/

/-- An entry released from output `level`: it has stopped at output 0, or it is in RELEASE at a phase from which, if
the table never falls, every scaled value still to be read is at most the output. -/
def releasedFrom (c : Config) (level : BitVec 16) (e : EnvSlot) : Prop :=
  (e.mode = .stopping ∧ e.output = 0) ∨
    (e.mode = .release ∧ e.releaseStartLevel = level ∧
      (envTableRises c → ∀ i d, e.phase.toNat >>> Config.precisionBits ≤ i → decRead c i = .ok d →
        d * level.toNat / Config.envRange ≤ e.output.toNat))

/-- GATEOFF captures the output, which bounds every scaled value whatever the table (R103). -/
theorem releasedFrom_released (c : Config) (e : EnvSlot) : releasedFrom c e.output e.released :=
  .inr ⟨rfl, rfl, fun _ _ _ _ hread => scaled_le (decRead_le hread)⟩

/-- The descending read of a table that never falls never rises (R121, R132). -/
theorem decRead_le_of_rises {c : Config} (hrises : envTableRises c) {i j a b : Nat} (hij : i ≤ j)
    (ha : decRead c i = .ok a) (hb : decRead c j = .ok b) : b ≤ a := by
  have hlt : ∀ {k x}, decRead c k = .ok x → k < 4096 := fun {k x} h => by
    by_contra hout
    simp [decRead, hout] at h
  rw [decRead_of_lt (hlt ha)] at ha
  rw [decRead_of_lt (hlt hb)] at hb
  rw [← Except.ok.inj ha, ← Except.ok.inj hb]
  exact hrises _ _ _ _ (by omega)

/-- The premise of R132 about the table can be met: the stand-in `ENV_TABLE` of the test vectors rises. -/
theorem envTableRises_exampleConfig : envTableRises Tests.exampleConfig := by
  have hentry : ∀ (i : Nat) (hi : i < 4096), (Tests.exampleConfig.envTable[i]'hi).val = i := fun i hi => by
    simp only [Tests.exampleConfig, Tests.tableOf, Vector.getElem_mk, List.getElem_toArray, List.getElem_map,
      List.getElem_range', Fin.val_ofNat]
    omega
  intro i j hi hj hij
  rwa [hentry i hi, hentry j hj]
/-- What a tick of an entry in RELEASE can do (R126): stop, or move to the advanced phase at the scaled read. -/
theorem releaseTick_cases {c : Config} {p : EnvParams} {e e' : EnvSlot} (h : releaseTick c p e = .ok e') :
    e' = e.stopped ∨ ∃ t d, e.phase.toNat ≤ t ∧ t < Config.vtim ∧ decRead c (t >>> Config.precisionBits) = .ok d ∧
      e' = { e with phase := truncU 32 t, output := truncU 16 (d * e.releaseStartLevel.toNat / Config.envRange) } := by
  simp only [releaseTick] at h
  split at h
  next => exact .inl (Except.ok.inj h).symm
  next hbelow =>
    split at h
    next d hread =>
      split at h
      next => exact .inl (Except.ok.inj h).symm
      next => exact .inr ⟨_, d, Nat.le_add_right .., Nat.lt_of_not_le hbelow, hread, (Except.ok.inj h).symm⟩
    next => exact nomatch h

/-- A tick of a released entry leaves it released, at an output no higher than the level and, if the table never
falls, no higher than before. -/
theorem releasedFrom.tick {c : Config} {p : EnvParams} {level : BitVec 16} {e e' : EnvSlot}
    (he : releasedFrom c level e) (h : envTick c p e = .ok e') :
    releasedFrom c level e' ∧ e'.output.toNat ≤ level.toNat ∧
      (envTableRises c → e'.output.toNat ≤ e.output.toNat) := by
  rcases he with ⟨hmode, hout⟩ | ⟨hmode, rfl, hbound⟩
  · simp only [envTick, hmode] at h
    cases h
    exact ⟨.inl ⟨hmode, hout⟩, by simp [hout], fun _ => le_rfl⟩
  · simp only [envTick, hmode] at h
    rcases releaseTick_cases h with rfl | ⟨t, d, hphase, ht, hread, rfl⟩
    · exact ⟨.inl ⟨rfl, rfl⟩, Nat.zero_le _, fun _ => Nat.zero_le _⟩
    · have hindex : e.phase.toNat >>> Config.precisionBits ≤ t >>> Config.precisionBits := by
        simpa only [Nat.shiftRight_eq_div_pow] using Nat.div_le_div_right hphase
      have hle := scaled_le (level := e.releaseStartLevel.toNat) (decRead_le hread)
      have hnewPhase : (truncU 32 t).toNat = t := toNat_truncU_of_lt (ht.trans (by decide))
      have hnewOut := toNat_truncU_of_lt (n := 16) (hle.trans_lt e.releaseStartLevel.isLt)
      refine ⟨.inr ⟨hmode, rfl, fun hrises i d' hi hread' => ?_⟩, hnewOut.trans_le hle, fun hrises => ?_⟩
      · rw [hnewPhase] at hi
        rw [hnewOut]
        exact Nat.div_le_div_right (Nat.mul_le_mul_right _ (decRead_le_of_rises hrises hi hread hread'))
      · rw [hnewOut]
        exact hbound hrises _ _ hindex hread

theorem execTimes_succ_of_next {i : Instr} {s t : State} (h : exec i s = .next t) (n : Nat) :
    execTimes i (n + 1) s = execTimes i n t := by
  rw [execTimes, h]

/-- `n` ENVSTEPs of a released entry: every amplitude is at most the level, and if the table never falls none rises
above the output before it. -/
theorem execTimes_envStep_releasedFrom {slot : BitVec 8} (cls : ParamClass) {level : BitVec 16} (n : Nat) {s : State}
    (hslot : slot.toNat ≤ s.cfg.maxVoice) (hfile : slot.toNat < s.env.length)
    (hrel : releasedFrom s.cfg level (s.envAt slot.toNat)) :
    ∃ t as, execTimes (.envStep slot cls) n s = .next t ∧ t.responses = as ++ s.responses ∧ as.length = n ∧
      (∀ a ∈ as, a.toNat ≤ level.toNat) ∧
      (envTableRises s.cfg → (∀ a ∈ as, a.toNat ≤ (s.envAt slot.toNat).output.toNat) ∧
        as.Pairwise fun later earlier => later.toNat ≤ earlier.toNat) := by
  induction n generalizing s with
  | zero => exact ⟨s, [], rfl, rfl, rfl, by simp, by simp⟩
  | succ n ih =>
    obtain ⟨s', e', htick, hexec, hentry, hresp, hcfg, hlength⟩ := exec_envStep_next cls hslot hfile
    obtain ⟨hrel', hle, hfall⟩ := hrel.tick htick
    obtain ⟨t, as, hrun, hresps, hcount, hbound, hpair⟩ :=
      ih (hcfg ▸ hslot) (hlength ▸ hfile) (hcfg ▸ hentry ▸ hrel')
    rw [hentry, hcfg] at hpair
    have hfirst := toNat_amplitudeResponse e'.output
    refine ⟨t, as ++ [amplitudeResponse e'.output], (execTimes_succ_of_next hexec n).trans hrun,
      by simp [hresps, hresp], by simp [hcount], ?bounded, fun hrises => ?falling⟩
    case bounded =>
      exact List.forall_mem_append.mpr ⟨hbound, List.forall_mem_singleton.mpr (hfirst.trans_le hle)⟩
    case falling =>
      obtain ⟨hbelow, hsorted⟩ := hpair hrises
      refine ⟨List.forall_mem_append.mpr ⟨fun a ha => (hbelow a ha).trans (hfall hrises),
        List.forall_mem_singleton.mpr (hfirst.trans_le (hfall hrises))⟩, ?_⟩
      refine List.pairwise_append.mpr ⟨hsorted, List.pairwise_singleton .., fun a ha => ?_⟩
      exact List.forall_mem_singleton.mpr ((hbelow a ha).trans_eq hfirst.symm)

/-! ## The values SETFMFREQ stores: no register write of R142 truncates -/

theorem toNat_carrierStepOf (w : Wave) (pitch : BitVec 16) :
    (carrierStepOf (Config.range w) pitch).toNat = Config.range w * pitch.toNat * 1024 / 25000 := by
  have hfits : Config.range w * pitch.toNat * 1024 / 25000 < 2 ^ 32 := by
    rw [range_eq]
    omega
  rw [carrierStepOf, Nat.shiftLeft_eq]
  exact toNat_truncU_of_lt hfits

/-- The carrier step of the highest pitch at the highest ratio still fits (R142). -/
theorem toNat_modulatorStepOf_carrierStepOf (w : Wave) (pitch ratio : BitVec 16) :
    (modulatorStepOf (carrierStepOf (Config.range w) pitch) ratio).toNat =
      (carrierStepOf (Config.range w) pitch).toNat * ratio.toNat / 256 := by
  have hcarrier : (carrierStepOf (Config.range w) pitch).toNat ≤ 4096 * 65535 * 1024 / 25000 := by
    rw [toNat_carrierStepOf, range_eq]
    omega
  have hproduct := Nat.mul_le_mul hcarrier (Nat.le_of_lt_succ ratio.isLt)
  exact toNat_truncU_of_lt (by rw [Config.modRatioDen]; omega)

theorem toInt_volumeDiffOf (c : Config) :
    (volumeDiffOf c).toInt = (c.fmStartDepth.val : Int) - (c.fmEndDepth.val : Int) := by
  have hstart := c.fmStartDepth.isLt
  have hend := c.fmEndDepth.isLt
  rw [volumeDiffOf, truncS, BitVec.toInt_ofInt]
  exact Int.bmod_eq_of_le (by omega) (by omega)

theorem toNat_modEnvStepOf (c : Config) :
    (modEnvStepOf c).toNat = 16777216 / c.fmEnvRaw * 1024 / c.durTicksFmEnv :=
  toNat_computeStep (Nat.le_add_left ..)

theorem oscAt_eq_of_getElem? {s : State} {i : Nat} {o : OscSlot} (h : s.osc[i]? = some o) : s.oscAt i = o := by
  simp [State.oscAt, List.getD, h]

theorem setOscAt_getElem?_self {s : State} {i : Nat} {o : OscSlot} (h : s.osc[i]? = some o) (o' : OscSlot) :
    (s.setOscAt i o').osc[i]? = some o' :=
  List.getElem?_set_self (List.getElem?_eq_some_iff.mp h).1

/-! ## The clamp of the rates (R108) -/

theorem clampRate_of_le_floor {raw : BitVec 12} (h : raw.toNat ≤ 5) : clampRate raw = clampRate 5 :=
  Nat.max_eq_right h

/-! ## The obligations -/

/-- Settles O20: each of the two writes restarts its own entry, and with `SLOT = FILTER_SLOT` the second repeats the
first. -/
theorem gateOnAttacksSlotAndFilter : Obligations.GateOnAttacksSlotAndFilter := by
  intro s slot e f hslot hown hfilter
  refine ⟨_, exec_gateOn hslot, ?own, ?filter, rfl, onlyEnvWritten_attackSlots_respond ..⟩ <;>
    rw [respond_env, attackSlot_getElem?, attackSlot_getElem?]
  case own =>
    rw [if_pos rfl, hown]
    split <;> rfl
  case filter =>
    rw [if_pos (show s.cfg.maxVoice = s.cfg.filterSlot from rfl), hfilter]
    split <;> rfl

/-- Settles O27: a sized file has the filter's entry, which GATEON writes last; any other command that may write it is
one of those named. -/
theorem filterEnvelopeWrittenOnlyByItsCommands : Obligations.FilterEnvelopeWrittenOnlyByItsCommands := by
  refine ⟨fun s t slot hsized hslot hexec => ?rearmed, fun s t i hexec hchanged => ?writers⟩
  case rearmed =>
    obtain ⟨hsize, -⟩ := hsized
    obtain rfl := Host.Outcome.next.inj ((exec_gateOn hslot).symm.trans hexec)
    have hfile : s.cfg.filterSlot < (s.attackSlot slot.toNat).env.length := by
      simp [hsize, Config.filterSlot]
    have hentry : (((s.attackSlot slot.toNat).attackSlot s.cfg.filterSlot).respond 0).envAt s.cfg.filterSlot =
        ((s.attackSlot slot.toNat).envAt s.cfg.filterSlot).attacked := envAt_setEnvAt_self hfile _
    rw [hentry]
    exact ⟨rfl, rfl⟩
  case writers =>
    have hwrites : mayWriteEnv s.cfg i s.cfg.filterSlot := by
      by_contra hnot
      exact hchanged (nextHolds_iff.mp (exec_keeps_envAt hnot) t hexec)
    cases i with
    | init dbg => exact .inl ⟨dbg, rfl⟩
    | gateOn slot => exact .inr (.inl ⟨slot, rfl⟩)
    | gateOff slot => exact .inr (.inr (.inl ⟨slot, rfl, hwrites.symm⟩))
    | envStep slot cls => exact .inr (.inr (.inr ⟨slot, cls, rfl, hwrites.symm⟩))
    | _ => exact hwrites.elim

/-- Settles O21: the entry written is the old one released. -/
theorem gateOffReleasesFromTheCurrentOutput : Obligations.GateOffReleasesFromTheCurrentOutput := by
  intro s slot e hslot hentry
  refine ⟨_, exec_gateOff hslot, ?_, rfl, onlyEnvWritten_setEnvAt_respond ..⟩
  rw [envAt_eq_of_getElem? hentry, respond_env]
  exact setEnvAt_getElem?_self hentry _

/-- Settles O37, by induction on the number of ENVSTEPs from the entry GATEOFF leaves (O21). -/
theorem releaseNeverExceedsItsStart : Obligations.ReleaseNeverExceedsItsStart := by
  intro s u slot cls e n hslot hentry hexec
  obtain ⟨u', hexec', hreleased, -, hcfg, -⟩ := gateOffReleasesFromTheCurrentOutput s slot e hslot hentry
  obtain rfl := Host.Outcome.next.inj (hexec'.symm.trans hexec)
  have hfile : slot.toNat < u'.env.length := (List.getElem?_eq_some_iff.mp hreleased).1
  have hstart : releasedFrom u'.cfg e.output (u'.envAt slot.toNat) :=
    (envAt_eq_of_getElem? hreleased).symm ▸ releasedFrom_released u'.cfg e
  obtain ⟨t, as, hrun, hresp, hcount, hbound, hpair⟩ :=
    execTimes_envStep_releasedFrom cls n (hcfg ▸ hslot) hfile hstart
  exact ⟨t, as, hrun, hresp, hcount, hbound, fun hrises => (hpair (hcfg.symm ▸ hrises)).2⟩

/-- Settles O43: the entry written is that of R142, and none of its values is truncated. -/
theorem setFmFreqStoresBothSteps : Obligations.SetFmFreqStoresBothSteps := by
  intro s slot pitch ts o hslot hentry
  refine ⟨_, setFmFreqSlot s.cfg s.modRatio pitch ts o, exec_setFmFreq hslot pitch ts, ?_,
    toNat_carrierStepOf .sine pitch,
    toNat_modulatorStepOf_carrierStepOf .sine pitch s.modRatio, toInt_volumeDiffOf s.cfg, rfl, toNat_modEnvStepOf s.cfg,
    rfl, rfl, onlyOscWritten_setOscAt_respond ..⟩
  rw [oscAt_eq_of_getElem? hentry, respond_osc]
  exact setOscAt_getElem?_self hentry _

/-- Settles O25: the set read back is the set written. -/
theorem setSusStoresTheLevel : Obligations.SetSusStoresTheLevel := by
  intro s cls level
  exact ⟨_, rfl, by rw [ep_respond, ep_setEp_self], by simp, onlyParamsWritten_setEp_respond ..⟩

/-- Settles O26: the three commands read the rate only through the clamp. -/
theorem ratesBelowTheFloorAreClamped : Obligations.RatesBelowTheFloorAreClamped := by
  intro s cls raw hraw
  have hclamp := clampRate_of_le_floor hraw
  refine ⟨?atk, ?dec, ?rel⟩
  case atk => simp only [exec, execSetAtk, hclamp]
  case dec => simp only [exec, execSetDec, hclamp]
  case rel => simp only [exec, execSetRel, hclamp]

/-- Settles O30: the tick in SUSTAIN sets the output to the level, whatever it was. -/
theorem envStepInSustain : Obligations.EnvStepInSustain := by
  intro s slot cls e hslot hentry hmode
  have htick : envTick s.cfg (s.ep cls) (s.envAt slot.toNat) = .ok (sustainTick (s.ep cls) e) := by
    rw [envAt_eq_of_getElem? hentry, envTick, hmode]
  refine ⟨_, exec_envStep hslot htick, setEnvAt_getElem?_self hentry _, ?_, onlyEnvWritten_setEnvAt_respond ..⟩
  rw [respond_responses, setEnvAt_responses, sustainTick, amplitudeResponse_sustainOutput]

/-- Settles O38, from what SETSUS stores (O25) and what ENVSTEP in SUSTAIN returns (O30). -/
theorem setSusActsOnTheNextStep : Obligations.SetSusActsOnTheNextStep := by
  intro s slot cls level e hslot hentry hmode
  obtain ⟨u, hsetSus, hep, hresp, hcfg, henv, -⟩ := setSusStoresTheLevel s cls level
  obtain ⟨t, hstep, -, hresp', -⟩ := envStepInSustain u slot cls e (hcfg ▸ hslot) (henv ▸ hentry) hmode
  exact ⟨u, t, hsetSus, hstep, by rw [hresp', hep, hresp]⟩

end Sys2Proof.Machine

/-! PROOFS, family `41_envelope_step`: what ENVSTEP does in each mode, the arcs along which a mode changes, and what
any number of ENVSTEPs of one class do in ATTACK and in SUSTAIN. -/

/-! ## The reads of the envelope table -/

namespace Sys2Proof.Machine

theorem shiftRight_precisionBits (t : Nat) : t >>> Config.precisionBits = t / 1024 :=
  Nat.shiftRight_eq_div_pow t 10

/-- The index of an advanced phase below `VTIM` lies in the table (R122). -/
theorem index_lt_of_lt_vtim {t : Nat} (h : t < Config.vtim) : t / 1024 < 4096 :=
  Nat.div_lt_of_lt_mul h

theorem envRead_ok_iff {c : Config} {i a : Nat} :
    envRead c i = .ok a ↔ (c.envTable[i]?).map Fin.val = some a := by
  rcases Nat.lt_or_ge i 4096 with hi | hi
  · simp [envRead_of_lt hi, hi]
  · simp [envRead, tableAt, hi, Except.map]

/-- The descending read, by the entry of the table it reads (R121). -/
theorem decRead_of_getElem? {c : Config} {i : Nat} {d : Fin 4097} (hi : i < 4096) (h : c.envTable[4095 - i]? = some d) :
    decRead c i = .ok d.val := by
  rw [decRead, if_pos hi]
  exact envRead_ok_iff.mpr (congrArg (Option.map Fin.val) h)

/-! ## One tick, case by case (R122 to R126) -/

/-- An entry that stays in its mode: the phase advanced to `t` and the output `a` (R123, R124, R126). -/
def EnvSlot.sweptTo (e : EnvSlot) (t a : Nat) : EnvSlot :=
  { e with phase := truncU 32 t, output := truncU 16 a }

theorem toNat_sweptTo_phase (e : EnvSlot) {t : Nat} (ht : t < Config.vtim) (a : Nat) :
    (e.sweptTo t a).phase.toNat = t :=
  toNat_truncU_of_lt (ht.trans (by decide))

theorem toNat_sweptTo_output (e : EnvSlot) (t : Nat) {a : Nat} (ha : a < 2 ^ 16) : (e.sweptTo t a).output.toNat = a :=
  toNat_truncU_of_lt ha

/-- A table value fits the output (R18). -/
theorem lt_outputWidth_of_le_envRange {a : Nat} (h : a ≤ Config.envRange) : a < 2 ^ 16 :=
  h.trans_lt (by decide)

section Ticks
variable {c : Config} {p : EnvParams} {e e' : EnvSlot} {a d : Nat}

theorem attackTick_of_le (h : Config.vtim ≤ e.phase.toNat + p.attackStep.toNat) :
    attackTick c p e = .ok { e with phase := 0, mode := .decay } :=
  if_pos h

theorem attackTick_of_lt (h : e.phase.toNat + p.attackStep.toNat < Config.vtim)
    (hread : envRead c ((e.phase.toNat + p.attackStep.toNat) / 1024) = .ok a) :
    attackTick c p e = .ok (e.sweptTo (e.phase.toNat + p.attackStep.toNat) a) := by
  simp only [attackTick, ge_iff_le, if_neg (Nat.not_le.mpr h), shiftRight_precisionBits, hread]
  rfl

/-- A step of 0 advances the phase to itself (R136). -/
theorem attackTick_of_step_zero (hstep : p.attackStep = 0) (h : e.phase.toNat < Config.vtim)
    (hread : envRead c (e.phase.toNat / 1024) = .ok a) : attackTick c p e = .ok { e with output := truncU 16 a } := by
  have hstays : e.phase.toNat + p.attackStep.toNat = e.phase.toNat := by rw [hstep]; rfl
  have hphase : truncU 32 e.phase.toNat = e.phase := by simp [truncU]
  rw [attackTick_of_lt (hstays.trans_lt h) (by rwa [hstays]), hstays, EnvSlot.sweptTo, hphase]

theorem decayTick_of_le (h : Config.vtim ≤ e.phase.toNat + p.decayStep.toNat) :
    decayTick c p e = .ok (e.sustained p) :=
  if_pos h

theorem decayTick_of_lt (h : e.phase.toNat + p.decayStep.toNat < Config.vtim)
    (hread : decRead c ((e.phase.toNat + p.decayStep.toNat) / 1024) = .ok d) :
    decayTick c p e = .ok (if d ≤ p.sustainLevel.toNat then e.sustained p
      else e.sweptTo (e.phase.toNat + p.decayStep.toNat) d) := by
  simp only [decayTick, ge_iff_le, if_neg (Nat.not_le.mpr h), shiftRight_precisionBits, hread]
  split <;> rfl

theorem releaseTick_of_le (h : Config.vtim ≤ e.phase.toNat + p.releaseStep.toNat) :
    releaseTick c p e = .ok e.stopped :=
  if_pos h

theorem releaseTick_of_lt (h : e.phase.toNat + p.releaseStep.toNat < Config.vtim)
    (hread : decRead c ((e.phase.toNat + p.releaseStep.toNat) / 1024) = .ok d) :
    releaseTick c p e = .ok (if d * e.releaseStartLevel.toNat / Config.envRange ≤ 1 then e.stopped
      else e.sweptTo (e.phase.toNat + p.releaseStep.toNat) (d * e.releaseStartLevel.toNat / Config.envRange)) := by
  simp only [releaseTick, ge_iff_le, if_neg (Nat.not_le.mpr h), shiftRight_precisionBits, hread]
  split <;> rfl

theorem envTick_attack (h : e.mode = .attack) : envTick c p e = attackTick c p e := by
  rw [envTick, h]

theorem envTick_decay (h : e.mode = .decay) : envTick c p e = decayTick c p e := by
  rw [envTick, h]

theorem envTick_sustain (h : e.mode = .sustain) : envTick c p e = .ok (sustainTick p e) := by
  rw [envTick, h]

theorem envTick_release (h : e.mode = .release) : envTick c p e = releaseTick c p e := by
  rw [envTick, h]

theorem envTick_silent (h : e.mode = .stop ∨ e.mode = .stopping) : envTick c p e = .ok e := by
  rcases h with h | h <;> rw [envTick, h]

/-! ## How a tick changes the mode (R129) -/

theorem attackTick_mode (h : attackTick c p e = .ok e') :
    e'.mode = e.mode ∨ e'.mode = .decay ∧ Config.vtim ≤ e.phase.toNat + p.attackStep.toNat := by
  rcases Nat.lt_or_ge (e.phase.toNat + p.attackStep.toNat) Config.vtim with hlt | hge
  · have hread := envRead_of_lt (c := c) (index_lt_of_lt_vtim hlt)
    obtain rfl := Except.ok.inj ((attackTick_of_lt hlt hread).symm.trans h)
    exact .inl rfl
  · obtain rfl := Except.ok.inj ((attackTick_of_le hge).symm.trans h)
    exact .inr ⟨rfl, hge⟩

theorem decayTick_mode (h : decayTick c p e = .ok e') :
    e'.mode = e.mode ∨ e'.mode = .sustain ∧ (Config.vtim ≤ e.phase.toNat + p.decayStep.toNat ∨
      ∃ d, decRead c ((e.phase.toNat + p.decayStep.toNat) / 1024) = .ok d ∧ d ≤ p.sustainLevel.toNat) := by
  rcases Nat.lt_or_ge (e.phase.toNat + p.decayStep.toNat) Config.vtim with hlt | hge
  · have hread := decRead_of_lt (c := c) (index_lt_of_lt_vtim hlt)
    obtain rfl := Except.ok.inj ((decayTick_of_lt hlt hread).symm.trans h)
    split
    next hlevel => exact .inr ⟨rfl, .inr ⟨_, hread, hlevel⟩⟩
    next => exact .inl rfl
  · obtain rfl := Except.ok.inj ((decayTick_of_le hge).symm.trans h)
    exact .inr ⟨rfl, .inl hge⟩

theorem releaseTick_mode (h : releaseTick c p e = .ok e') :
    e'.mode = e.mode ∨ e'.mode = .stopping ∧ (Config.vtim ≤ e.phase.toNat + p.releaseStep.toNat ∨
      ∃ d, decRead c ((e.phase.toNat + p.releaseStep.toNat) / 1024) = .ok d ∧
        d * e.releaseStartLevel.toNat / Config.envRange ≤ 1) := by
  rcases Nat.lt_or_ge (e.phase.toNat + p.releaseStep.toNat) Config.vtim with hlt | hge
  · have hread := decRead_of_lt (c := c) (index_lt_of_lt_vtim hlt)
    obtain rfl := Except.ok.inj ((releaseTick_of_lt hlt hread).symm.trans h)
    split
    next hscaled => exact .inr ⟨rfl, .inr ⟨_, hread, hscaled⟩⟩
    next => exact .inl rfl
  · obtain rfl := Except.ok.inj ((releaseTick_of_le hge).symm.trans h)
    exact .inr ⟨rfl, .inl hge⟩

end Ticks

/-- A tick keeps the mode, or takes the arc of R129 that ENVSTEP has from it. -/
theorem envTick_mode {s : State} {slot : BitVec 8} {cls : ParamClass} {e' : EnvSlot}
    (h : envTick s.cfg (s.ep cls) (s.envAt slot.toNat) = .ok e') :
    e'.mode = (s.envAt slot.toNat).mode ∨
      execArc s (.envStep slot cls) slot.toNat (s.envAt slot.toNat).mode e'.mode := by
  cases hmode : (s.envAt slot.toNat).mode with
  | attack =>
    rw [envTick_attack hmode] at h
    exact (attackTick_mode h).imp (·.trans hmode) fun ⟨hnew, hcond⟩ => ⟨rfl, .inl ⟨rfl, hnew, hcond⟩⟩
  | decay =>
    rw [envTick_decay hmode] at h
    exact (decayTick_mode h).imp (·.trans hmode) fun ⟨hnew, hcond⟩ => ⟨rfl, .inr (.inl ⟨rfl, hnew, hcond⟩)⟩
  | release =>
    rw [envTick_release hmode] at h
    exact (releaseTick_mode h).imp (·.trans hmode) fun ⟨hnew, hcond⟩ => ⟨rfl, .inr (.inr ⟨rfl, hnew, hcond⟩)⟩
  | sustain =>
    rw [envTick_sustain hmode] at h
    exact .inl (Except.ok.inj h ▸ hmode)
  | stop =>
    rw [envTick_silent (.inl hmode)] at h
    exact .inl (Except.ok.inj h ▸ hmode)
  | stopping =>
    rw [envTick_silent (.inr hmode)] at h
    exact .inl (Except.ok.inj h ▸ hmode)

/-! ## How a command changes the mode of a slot (R129) -/

/-- A write of one entry is seen at that entry alone, and there only if the file holds it. -/
theorem envAt_setEnvAt_cases (s : State) (i j : Nat) (e : EnvSlot) :
    (s.setEnvAt i e).envAt j = s.envAt j ∨ j = i ∧ (s.setEnvAt i e).envAt j = e := by
  rcases eq_or_ne j i with rfl | hne
  · rcases Nat.lt_or_ge j s.env.length with hj | hj
    · exact .inr ⟨rfl, envAt_setEnvAt_self hj e⟩
    · exact .inl (envAt_congr (List.set_eq_of_length_le hj) j)
  · exact .inl (envAt_setEnvAt_ne hne e)

theorem initEnvelopes_envAt (s : State) (j : Nat) : s.initEnvelopes.envAt j = .reset := by
  rw [State.envAt, initEnvelopes_env, List.getD_eq_getElem?_getD, List.getElem?_map]
  cases s.env[j]? <;> rfl

theorem hardwareReset_envAt (s : State) (j : Nat) : s.hardwareReset.envAt j = .reset := by
  rw [State.envAt, hardwareReset_env, List.getD_eq_getElem?_getD, List.getElem?_replicate]
  split <;> rfl

/-- From `s` to `t` the mode of slot `j` is kept, or changed along an arc that `i` takes. -/
def modeAlongArc (s : State) (i : Instr) (j : Nat) (t : State) : Prop :=
  (t.envAt j).mode = (s.envAt j).mode ∨ execArc s i j (s.envAt j).mode (t.envAt j).mode

theorem modeAlongArc_of_envAt_eq {s t : State} {i : Instr} {j : Nat} (h : t.envAt j = s.envAt j) :
    modeAlongArc s i j t :=
  .inl (congrArg EnvSlot.mode h)

theorem modeAlongArc_attackSlots (s : State) (slot : BitVec 8) (j : Nat) :
    modeAlongArc s (.gateOn slot) j (((s.attackSlot slot.toNat).attackSlot s.cfg.filterSlot).respond 0) := by
  rcases envAt_setEnvAt_cases (s.attackSlot slot.toNat) s.cfg.filterSlot j _ with hkept | ⟨hj, hwritten⟩
  · rcases envAt_setEnvAt_cases s slot.toNat j _ with hkept' | ⟨hj, hwritten⟩
    · exact modeAlongArc_of_envAt_eq (hkept.trans hkept')
    · exact .inr ⟨congrArg EnvSlot.mode (hkept.trans hwritten), .inl hj⟩
  · exact .inr ⟨congrArg EnvSlot.mode hwritten, .inr hj⟩

/-- Of the commands, only the four that may write an envelope entry can change a mode. -/
theorem exec_modeAlongArc (i : Instr) (s : State) (j : Nat) : nextHolds (modeAlongArc s i j) (exec i s) := by
  have hslot : ∀ w, modeAlongArc s i j (s.recordFault .slot w) := fun _ =>
    modeAlongArc_of_envAt_eq (envAt_congr (recordFault_env ..) j)
  have hunwritten (hnot : ¬ mayWriteEnv s.cfg i j) : nextHolds (modeAlongArc s i j) (exec i s) :=
    nextHolds_iff.mpr fun t ht => modeAlongArc_of_envAt_eq (nextHolds_iff.mp (exec_keeps_envAt hnot) t ht)
  cases i with
  | init => exact .inr (congrArg EnvSlot.mode (initEnvelopes_envAt s j))
  | gateOn slot => exact nextHolds_inEnvRange (hslot _) fun _ => modeAlongArc_attackSlots s slot j
  | gateOff slot =>
    refine nextHolds_inEnvRange (hslot _) fun _ => ?_
    rcases envAt_setEnvAt_cases s slot.toNat j _ with hkept | ⟨hj, hwritten⟩
    · exact modeAlongArc_of_envAt_eq hkept
    · exact .inr ⟨congrArg EnvSlot.mode hwritten, hj⟩
  | envStep slot cls =>
    refine nextHolds_inEnvRange (hslot _) fun _ => nextHolds_finishEnv fun e' htick => ?_
    rcases envAt_setEnvAt_cases s slot.toNat j e' with hkept | ⟨rfl, hwritten⟩
    · exact modeAlongArc_of_envAt_eq hkept
    · have hmode := congrArg EnvSlot.mode hwritten
      exact (envTick_mode htick).imp hmode.trans fun harc => hmode ▸ harc
  | _ => exact hunwritten id

/-! ## ENVSTEP of a slot the file holds (R120) -/

/-- ENVSTEP of a slot with entry `e`, by the tick of `e`: the entry, the response and the frame. -/
theorem exec_envStep_of_tick {s : State} {slot : BitVec 8} {cls : ParamClass} {e e' : EnvSlot}
    (hslot : slot.toNat ≤ s.cfg.maxVoice) (hentry : s.env[slot.toNat]? = some e)
    (htick : envTick s.cfg (s.ep cls) e = .ok e') :
    ∃ t, exec (.envStep slot cls) s = .next t ∧ t.env[slot.toNat]? = some e' ∧
      t.responses = e'.output.zeroExtend 32 :: s.responses ∧ onlyEnvWritten (fun j => j = slot.toNat) s t :=
  ⟨_, exec_envStep hslot ((envAt_eq_of_getElem? hentry).symm ▸ htick), setEnvAt_getElem?_self hentry e', rfl,
    onlyEnvWritten_setEnvAt_respond ..⟩

theorem setEnvAt_self {s : State} {i : Nat} {e : EnvSlot} (h : s.env[i]? = some e) : s.setEnvAt i e = s := by
  obtain ⟨hi, rfl⟩ := List.getElem?_eq_some_iff.mp h
  rw [State.setEnvAt, List.set_getElem_self]

theorem onlyEnvWritten.ep {touched : Nat → Prop} {s t : State} (h : onlyEnvWritten touched s t) (cls : ParamClass) :
    t.ep cls = s.ep cls := by
  obtain ⟨-, hvoice, hfilter, -⟩ := h
  cases cls with
  | voice => exact hvoice
  | filter => exact hfilter

/-! ## Any number of ENVSTEPs of one class (R130, R131, R136) -/

/-- One more execution after `n`. -/
theorem execTimes_succ_of_execTimes {i : Instr} {n : Nat} {s t u : State} (h : execTimes i n s = .next t)
    (hlast : exec i t = .next u) : execTimes i (n + 1) s = .next u := by
  induction n generalizing s with
  | zero =>
    obtain rfl := Host.Outcome.next.inj h
    exact execTimes_succ_of_next hlast 0
  | succ n ih =>
    obtain ⟨s', hfirst⟩ := exec_next i s
    rw [execTimes_succ_of_next hfirst] at h ⊢
    exact ih h

/-- What holds of the entry and the responses before the first ENVSTEP, and is carried on by every tick under the
parameter set as it stands, holds after any number of them. -/
theorem execTimes_envStep_invariant {P : Nat → EnvSlot → List Word → Prop} {s : State} {slot : BitVec 8}
    (cls : ParamClass) {e : EnvSlot} (hslot : slot.toNat ≤ s.cfg.maxVoice) (hentry : s.env[slot.toNat]? = some e)
    (hzero : P 0 e s.responses)
    (hsucc : ∀ k x x' rs, P k x rs → envTick s.cfg (s.ep cls) x = .ok x' →
      P (k + 1) x' (x'.output.zeroExtend 32 :: rs))
    (n : Nat) : ∃ t, execTimes (.envStep slot cls) n s = .next t ∧ P n (t.envAt slot.toNat) t.responses := by
  suffices hrun : ∃ t x, execTimes (.envStep slot cls) n s = .next t ∧ t.env[slot.toNat]? = some x ∧
      t.cfg = s.cfg ∧ t.ep cls = s.ep cls ∧ P n x t.responses by
    obtain ⟨t, x, hexec, hx, -, -, hP⟩ := hrun
    exact ⟨t, hexec, (envAt_eq_of_getElem? hx).symm ▸ hP⟩
  induction n with
  | zero => exact ⟨s, e, rfl, hentry, rfl, rfl, hzero⟩
  | succ n ih =>
    obtain ⟨t, x, hexec, hx, hcfg, hep, hP⟩ := ih
    obtain ⟨x', htick⟩ := envTick_ok t.cfg (t.ep cls) x
    obtain ⟨u, hlast, hx', hresp, hframe⟩ := exec_envStep_of_tick (hcfg ▸ hslot) hx htick
    rw [hcfg, hep] at htick
    have hkept := hframe.ep cls
    obtain ⟨hcfg', -⟩ := hframe
    exact ⟨u, x', execTimes_succ_of_execTimes hexec hlast, hx', hcfg'.trans hcfg, hkept.trans hep,
      hresp ▸ hsucc n x x' _ hP htick⟩

/-- If every tick keeps `Q` of the entry and returns `r`, then any number of ENVSTEPs do. -/
theorem execTimes_envStep_repeats {Q : EnvSlot → Prop} {r : Word} {s : State} {slot : BitVec 8} {cls : ParamClass}
    {e : EnvSlot} (hslot : slot.toNat ≤ s.cfg.maxVoice) (hentry : s.env[slot.toNat]? = some e) (hQ : Q e)
    (htick : ∀ x x', Q x → envTick s.cfg (s.ep cls) x = .ok x' → Q x' ∧ amplitudeResponse x'.output = r) (n : Nat) :
    ∃ t, execTimes (.envStep slot cls) n s = .next t ∧ Q (t.envAt slot.toNat) ∧
      t.responses = List.replicate n r ++ s.responses := by
  refine execTimes_envStep_invariant (P := fun k x rs => Q x ∧ rs = List.replicate k r ++ s.responses) cls hslot hentry
    ⟨hQ, rfl⟩ ?_ n
  rintro k x x' rs ⟨hx, rfl⟩ hx'
  obtain ⟨hkept, hresp⟩ := htick x x' hx hx'
  exact ⟨hkept, congrArg (· :: _) hresp⟩

/-- Where an ATTACK that began at phase 0 stands after `k` ticks: still in ATTACK at `k` steps while these are below
`VTIM`, and in DECAY at phase 0 after the first tick that reaches `VTIM` (R130). -/
def attackedFor (step k : Nat) (e : EnvSlot) : Prop :=
  (k * step < Config.vtim → e.mode = .attack ∧ e.phase.toNat = k * step) ∧
    (Config.vtim ≤ k * step → (k - 1) * step < Config.vtim → e.mode = .decay ∧ e.phase = 0)

theorem attackedFor_zero {e : EnvSlot} (hmode : e.mode = .attack) (hphase : e.phase = 0) (step : Nat) :
    attackedFor step 0 e :=
  ⟨fun _ => ⟨hmode, by simp [hphase]⟩, fun hreached => absurd hreached (by simp)⟩

theorem attackedFor.tick {c : Config} {p : EnvParams} {k : Nat} {e e' : EnvSlot}
    (he : attackedFor p.attackStep.toNat k e) (h : envTick c p e = .ok e') :
    attackedFor p.attackStep.toNat (k + 1) e' := by
  have hadvance : (k + 1) * p.attackStep.toNat = k * p.attackStep.toNat + p.attackStep.toNat := Nat.succ_mul ..
  obtain ⟨hbefore, -⟩ := he
  refine ⟨fun hbelow => ?_, fun hreached hnot => ?_⟩
  · obtain ⟨hmode, hphase⟩ := hbefore (by omega)
    rw [hadvance, ← hphase] at hbelow ⊢
    rw [envTick_attack hmode, attackTick_of_lt hbelow (envRead_of_lt (index_lt_of_lt_vtim hbelow))] at h
    obtain rfl := Except.ok.inj h
    exact ⟨hmode, toNat_sweptTo_phase e hbelow _⟩
  · obtain ⟨hmode, hphase⟩ := hbefore hnot
    rw [hadvance, ← hphase] at hreached
    rw [envTick_attack hmode, attackTick_of_le hreached] at h
    obtain rfl := Except.ok.inj h
    exact ⟨rfl, rfl⟩

/-- `ceil(VTIM / step)` steps reach `VTIM`, and one fewer do not. -/
theorem ceiling_steps_reach_vtim {step : Nat} (hstep : 1 ≤ step) :
    Config.vtim ≤ (Config.vtim + step - 1) / step * step ∧
      ((Config.vtim + step - 1) / step - 1) * step < Config.vtim := by
  rw [← Nat.ceilDiv_eq_add_pred_div]
  have hcount : ∀ k, Config.vtim ⌈/⌉ step ≤ k ↔ Config.vtim ≤ k * step := fun k => by
    rw [ceilDiv_le_iff_le_mul hstep, Nat.mul_comm]
  refine ⟨(hcount _).mp le_rfl, Nat.lt_of_not_le fun hreached => ?_⟩
  have hsome : 0 < Config.vtim ⌈/⌉ step := Nat.pos_of_ne_zero fun hzero => by
    simpa using (hcount 0).mp hzero.le
  have hfewer := (hcount _).mpr hreached
  omega

/-! ## The obligations -/

/-- Settles O28, by the two cases of the tick in ATTACK. -/
theorem envStepInAttack : Obligations.EnvStepInAttack := by
  intro s slot cls e hslot hentry hmode
  obtain ⟨e', htick⟩ := attackTick_ok s.cfg (s.ep cls) e
  obtain ⟨t, hexec, hnew, hresp, hframe⟩ := exec_envStep_of_tick hslot hentry ((envTick_attack hmode).trans htick)
  refine ⟨t, e', hexec, hnew, fun hreached => ?crossing, fun hbelow => ?sweeping, hresp, hframe⟩
  case crossing => exact Except.ok.inj (htick.symm.trans (attackTick_of_le hreached))
  case sweeping =>
    have hread := envRead_of_lt (c := s.cfg) (index_lt_of_lt_vtim hbelow)
    obtain rfl := Except.ok.inj ((attackTick_of_lt hbelow hread).symm.trans htick)
    have hphase := toNat_sweptTo_phase e hbelow
    refine ⟨rfl, hphase _, ?_⟩
    rw [hphase, toNat_sweptTo_output e _ (lt_outputWidth_of_le_envRange (envRead_le hread))]
    exact envRead_ok_iff.mp hread

/-- Settles O29, by the three cases of the tick in DECAY. -/
theorem envStepInDecay : Obligations.EnvStepInDecay := by
  intro s slot cls e hslot hentry hmode
  obtain ⟨e', htick⟩ := decayTick_ok s.cfg (s.ep cls) e
  obtain ⟨t, hexec, hnew, hresp, hframe⟩ := exec_envStep_of_tick hslot hentry ((envTick_decay hmode).trans htick)
  refine ⟨t, e', hexec, hnew, fun hreached => ?bound, fun d hbelow hd => ?reading, hresp, hframe⟩
  case bound => exact Except.ok.inj (htick.symm.trans (decayTick_of_le hreached))
  case reading =>
    have hread := decRead_of_getElem? (index_lt_of_lt_vtim hbelow) hd
    obtain rfl := Except.ok.inj ((decayTick_of_lt hbelow hread).symm.trans htick)
    refine ⟨fun hlevel => if_pos hlevel, fun habove => ?_⟩
    rw [if_neg (Nat.not_le.mpr habove)]
    exact ⟨rfl, toNat_sweptTo_phase e hbelow _,
      toNat_sweptTo_output e _ (lt_outputWidth_of_le_envRange (decRead_le hread))⟩

/-- Settles O31, by the three cases of the tick in RELEASE. -/
theorem envStepInRelease : Obligations.EnvStepInRelease := by
  intro s slot cls e hslot hentry hmode
  obtain ⟨e', htick⟩ := releaseTick_ok s.cfg (s.ep cls) e
  obtain ⟨t, hexec, hnew, hresp, hframe⟩ := exec_envStep_of_tick hslot hentry ((envTick_release hmode).trans htick)
  refine ⟨t, e', hexec, hnew, fun hreached => ?bound, fun d hbelow hd => ?reading, hresp, hframe⟩
  case bound => exact Except.ok.inj (htick.symm.trans (releaseTick_of_le hreached))
  case reading =>
    have hread := decRead_of_getElem? (index_lt_of_lt_vtim hbelow) hd
    obtain rfl := Except.ok.inj ((releaseTick_of_lt hbelow hread).symm.trans htick)
    refine ⟨fun hscaled => if_pos hscaled, fun habove => ?_⟩
    rw [if_neg (Nat.not_le.mpr habove)]
    exact ⟨rfl, toNat_sweptTo_phase e hbelow _,
      toNat_sweptTo_output e _ ((scaled_le (decRead_le hread)).trans_lt e.releaseStartLevel.isLt)⟩

/-- Settles O33, by a case split on the command, on the mode and on the case of the tick; a word that is no command
leaves the envelope file alone. -/
theorem modesChangeOnlyAlongTheArcs : Obligations.ModesChangeOnlyAlongTheArcs := by
  refine ⟨fun s t i j => nextHolds_iff.mp (exec_modeAlongArc i s j) t, fun s t e c hdecode hexec => ?fault,
    fun s t j hreset => ?reset⟩
  case fault =>
    obtain rfl := Host.Outcome.next.inj ((transact_of_error hdecode s).symm.trans hexec)
    exact recordFault_env ..
  case reset =>
    obtain rfl := Host.Outcome.next.inj hreset
    rw [hardwareReset_envAt]
    rfl

/-- Settles O34, by induction on the number of ENVSTEPs; the ceiling count is the first whose steps reach `VTIM`. -/
theorem attackCrossesAtTheCeilingCount : Obligations.AttackCrossesAtTheCeilingCount := by
  intro s slot cls e hslot hentry hmode hphase hstep
  have hrun := execTimes_envStep_invariant (P := fun k x _ => attackedFor (s.ep cls).attackStep.toNat k x) cls hslot
    hentry (attackedFor_zero hmode hphase _) fun _ _ _ _ hx htick => hx.tick htick
  refine ⟨fun k hbelow => ?_, ?_⟩
  · obtain ⟨t, hexec, hsweeping, -⟩ := hrun k
    exact ⟨t, hexec, hsweeping hbelow⟩
  · obtain ⟨t, hexec, -, hcrossed⟩ := hrun _
    obtain ⟨hreached, hfewer⟩ := ceiling_steps_reach_vtim hstep
    exact ⟨t, hexec, hcrossed hreached hfewer⟩

/-- Settles O35, by induction on the number of ENVSTEPs: a step of 0 advances the phase to itself. -/
theorem zeroStepStallsTheAttack : Obligations.ZeroStepStallsTheAttack := by
  intro s slot cls e n hslot hentry hmode hphase hstep
  obtain ⟨a, hread⟩ : ∃ a, envRead s.cfg (e.phase.toNat / 1024) = .ok a :=
    ⟨_, envRead_of_lt (index_lt_of_lt_vtim hphase)⟩
  have htable : (s.cfg.envTable[e.phase.toNat / 1024]?).map Fin.val = some (amplitudeResponse (truncU 16 a)).toNat := by
    rw [toNat_amplitudeResponse, toNat_truncU_of_lt (lt_outputWidth_of_le_envRange (envRead_le hread))]
    exact envRead_ok_iff.mp hread
  have hstall (x x' : EnvSlot) (hx : x.mode = .attack ∧ x.phase = e.phase)
      (htick : envTick s.cfg (s.ep cls) x = .ok x') :
      (x'.mode = .attack ∧ x'.phase = e.phase) ∧ amplitudeResponse x'.output = amplitudeResponse (truncU 16 a) := by
    obtain ⟨hmode', hsame⟩ := hx
    rw [envTick_attack hmode', attackTick_of_step_zero hstep (hsame ▸ hphase) (hsame ▸ hread)] at htick
    obtain rfl := Except.ok.inj htick
    exact ⟨⟨hmode', hsame⟩, rfl⟩
  obtain ⟨t, hexec, ⟨hstalled, hkept⟩, hresp⟩ := execTimes_envStep_repeats hslot hentry ⟨hmode, rfl⟩ hstall n
  exact ⟨t, _, hexec, hstalled, hkept, htable, hresp⟩

/-- Settles O36, by induction on the number of ENVSTEPs: each sets the output to the level, whatever it was. -/
theorem sustainReturnsTheLevelForever : Obligations.SustainReturnsTheLevelForever := by
  intro s slot cls e n hslot hentry hmode
  refine execTimes_envStep_repeats (Q := fun x => x.mode = .sustain) hslot hentry hmode (fun x x' hx htick => ?_) n
  rw [envTick_sustain hx] at htick
  obtain rfl := Except.ok.inj htick
  exact ⟨hx, amplitudeResponse_sustainOutput _⟩

/-- Settles O32: the entry written back is the entry read. -/
theorem envStepIsIdempotentWhenStopped : Obligations.EnvStepIsIdempotentWhenStopped := by
  intro s slot cls e hslot hentry hmode
  refine ⟨?_, fun ⟨_, _, hsilent, _, _⟩ => ?_⟩
  · have htick : envTick s.cfg (s.ep cls) (s.envAt slot.toNat) = .ok e := by
      rw [envAt_eq_of_getElem? hentry, envTick_silent hmode]
    rw [exec_envStep hslot htick, setEnvAt_self hentry]
    rfl
  · rw [hsilent (by rcases hmode with h | h <;> rw [h] <;> rfl)]
    rfl

end Sys2Proof.Machine

/-! PROOFS, family `42_oscillator`: what the settings commands and SETFREQ store, what a tick of an oscillator entry
computes on the simple and on the phase-modulation path, and that the two engines commute. -/

/-! ## The reads of the wave tables and the square rule (R62, R150) -/

namespace Sys2Proof.Machine

theorem squareThreshold_eq (pw : BitVec 12) : squareThreshold pw = min (pw.toNat * 4096 / 4096) 4095 := by
  rw [squareThreshold, Nat.shiftRight_eq_div_pow]
  rfl

theorem toInt_squareSample_of_lt {c : Config} {pw : BitVec 12} {i : Nat} (h : i < squareThreshold pw) :
    (squareSample c pw i).toInt = (c.fullScale.val : Int) := by
  have hscale := c.fullScale.isLt
  rw [squareSample, if_pos h]
  exact BitVec.toInt_ofInt_eq_self (by decide) (by omega) (by omega)

theorem toInt_squareSample_of_le {c : Config} {pw : BitVec 12} {i : Nat} (h : squareThreshold pw ≤ i) :
    (squareSample c pw i).toInt = -(c.fullScale.val : Int) := by
  have hscale := c.fullScale.isLt
  rw [squareSample, if_neg (Nat.not_lt.mpr h)]
  exact BitVec.toInt_ofInt_eq_self (by decide) (by omega) (by omega)

/-! ## One tick on the simple path (R151) -/

/-- The index of a phase just advanced is inside the table, so the source's index mask changes nothing (R151). -/
theorem phaseIndex_advancePhase_masked (w : Wave) (phase step : Word) :
    phaseIndex (advancePhase (Config.range w) phase step) &&& (Config.range w - 1) =
      (advancePhase (Config.range w) phase step).toNat / 1024 := by
  have hindex := phaseIndex_advancePhase_lt w phase step
  rw [phaseIndex_eq] at hindex ⊢
  rw [range_eq] at hindex ⊢
  exact (Nat.and_two_pow_sub_one_eq_mod _ 12).trans (Nat.mod_eq_of_lt hindex)

/-- What a tick on the simple path computes: the advanced phase, the sample at its index, and nothing else. -/
theorem oscTick_cases {c : Config} {w : Wave} {pw : BitVec 12} {o o' : OscSlot} (h : oscTick c w pw o = .ok o') :
    o'.carrierPhase = advancePhase (Config.range w) o.carrierPhase o.carrierStep ∧
      waveSample c pw w (o'.carrierPhase.toNat / 1024) = .ok o'.sample ∧
      o' = { o with carrierPhase := o'.carrierPhase, sample := o'.sample } := by
  simp only [oscTick, phaseIndex_advancePhase_masked] at h
  split at h
  next smp hread =>
    obtain rfl := Except.ok.inj h
    exact ⟨rfl, hread, rfl⟩
  next => exact nomatch h

/-! ## One tick on the phase-modulation path, part by part (R153 to R156) -/

theorem fmDepth_eq (c : Config) (d : Nat) (volumeDiff : BitVec 32) :
    fmDepth c d volumeDiff =
      BitVec.ofInt 32 ((c.fmEndDepth.val : Int) + Int.fdiv ((d : Int) * volumeDiff.toInt) 4096) := by
  rw [Int.fdiv_eq_ediv_of_nonneg _ (by decide)]
  rfl

theorem toInt_fmEndDepthOf (c : Config) : (fmEndDepthOf c).toInt = (c.fmEndDepth.val : Int) := by
  have hdepth := c.fmEndDepth.isLt
  exact BitVec.toInt_ofInt_eq_self (by decide) (by omega) (by omega)

theorem fmOffset_eq (m : BitVec 16) (depth : BitVec 32) :
    fmOffset m depth = (Int.fdiv (Int.fdiv (m.toInt * depth.toInt) 1024) 2 % 4096).toNat := by
  rw [fmOffset, Int.shiftRight_eq_div_pow, Int.shiftRight_eq_div_pow, Int.fdiv_eq_ediv_of_nonneg _ (by decide),
    Int.fdiv_eq_ediv_of_nonneg _ (by decide)]
  rfl

section ModulationEnvelope
variable {c : Config} {o o' : OscSlot}

theorem modEnvTick_of_lt {d : Nat} (hbelow : o.modEnvPhase.toNat < Config.vtim)
    (ht : o.modEnvPhase.toNat + o.modEnvStep.toNat < Config.vtim)
    (hread : decRead c ((o.modEnvPhase.toNat + o.modEnvStep.toNat) / 1024) = .ok d) :
    modEnvTick c o = .ok { o with
      modEnvPhase := truncU 32 (o.modEnvPhase.toNat + o.modEnvStep.toNat)
      currentModVolume := fmDepth c d o.volumeDiff } := by
  simp only [modEnvTick, if_pos hbelow, if_pos ht, shiftRight_precisionBits, hread]

theorem modEnvTick_of_crossing (hbelow : o.modEnvPhase.toNat < Config.vtim)
    (ht : Config.vtim ≤ o.modEnvPhase.toNat + o.modEnvStep.toNat) :
    modEnvTick c o = .ok { o with modEnvPhase := truncU 32 Config.vtim, currentModVolume := fmEndDepthOf c } := by
  simp only [modEnvTick, if_pos hbelow, if_neg (Nat.not_lt.mpr ht)]

theorem modEnvTick_of_held (hheld : Config.vtim ≤ o.modEnvPhase.toNat) : modEnvTick c o = .ok o :=
  if_neg (Nat.not_lt.mpr hheld)

/-- Part 1 writes the envelope's phase and the depth alone (R153). -/
theorem modEnvTick_frame (h : modEnvTick c o = .ok o') :
    o' = { o with modEnvPhase := o'.modEnvPhase, currentModVolume := o'.currentModVolume } := by
  rcases Nat.lt_or_ge o.modEnvPhase.toNat Config.vtim with hbelow | hheld
  · rcases Nat.lt_or_ge (o.modEnvPhase.toNat + o.modEnvStep.toNat) Config.vtim with ht | ht
    · obtain rfl := Except.ok.inj ((modEnvTick_of_lt hbelow ht (decRead_of_lt (index_lt_of_lt_vtim ht))).symm.trans h)
      rfl
    · obtain rfl := Except.ok.inj ((modEnvTick_of_crossing hbelow ht).symm.trans h)
      rfl
  · obtain rfl := Except.ok.inj ((modEnvTick_of_held hheld).symm.trans h)
    rfl

end ModulationEnvelope

/-- What parts 3 and 4 compute: two reads of the sine table, the second at the index the first offsets (R155, R156). -/
theorem fmLookup_cases {c : Config} {o o' : OscSlot} (h : fmLookup c o = .ok o') :
    ∃ m, c.sineTable[o.modulatorPhase.toNat / 1024]? = some m ∧
      c.sineTable[fmIndex o.carrierPhase (fmOffset m o.currentModVolume)]? = some o'.sample ∧
      o' = { o with sample := o'.sample } := by
  simp only [fmLookup, phaseIndex_eq] at h
  split at h
  next m hmod =>
    split at h
    next smp hout =>
      obtain rfl := Except.ok.inj h
      exact ⟨m, tableAt_ok hmod, tableAt_ok hout, rfl⟩
    next => exact nomatch h
  next => exact nomatch h

/-- What a tick on the phase-modulation path computes: the lookups from the entry that part 1 answers, with its phases
advanced (R152). -/
theorem fmTick_cases {c : Config} {o o' : OscSlot} (h : fmTick c o = .ok o') :
    ∃ o1, modEnvTick c o = .ok o1 ∧ fmLookup c (fmPhases o1) = .ok o' := by
  unfold fmTick at h
  split at h
  next o1 hmod => exact ⟨o1, hmod, h⟩
  next => exact nomatch h

/-- Parts 2 to 4 keep the depth envelope that part 1 answers. -/
theorem fmTick_modEnv {c : Config} {o o1 o' : OscSlot} (h : fmTick c o = .ok o') (hmod : modEnvTick c o = .ok o1) :
    o'.modEnvPhase = o1.modEnvPhase ∧ o'.currentModVolume = o1.currentModVolume := by
  obtain ⟨o2, hmod', hlookup⟩ := fmTick_cases h
  obtain rfl := Except.ok.inj (hmod'.symm.trans hmod)
  obtain ⟨-, -, -, hkept⟩ := fmLookup_cases hlookup
  rw [hkept]
  exact ⟨rfl, rfl⟩

/-- What a tick on the phase-modulation path writes, and the phases it writes (R152, R154). -/
theorem fmTick_phases {c : Config} {o o' : OscSlot} (h : fmTick c o = .ok o') :
    o'.carrierPhase = advancePhase (Config.range .sine) o.carrierPhase o.carrierStep ∧
      o'.modulatorPhase = advancePhase (Config.range .sine) o.modulatorPhase o.modulatorStep ∧
      o' = { o with carrierPhase := o'.carrierPhase, modulatorPhase := o'.modulatorPhase,
                    modEnvPhase := o'.modEnvPhase, currentModVolume := o'.currentModVolume, sample := o'.sample } := by
  obtain ⟨o1, hmod, hlookup⟩ := fmTick_cases h
  obtain ⟨-, -, -, hkept⟩ := fmLookup_cases hlookup
  rw [hkept, modEnvTick_frame hmod]
  exact ⟨rfl, rfl, rfl⟩

/-! ## The commands of this family: the settings, and the steps of a slot the file holds -/

/-- The frame of the commands that write a setting (R140, R143, R144). -/
theorem onlySettingsWritten_respond (s : State) (kind : Wave) (ratio : BitVec 16) (width : BitVec 12) (r : Word) :
    onlySettingsWritten s (({ s with wave := kind, modRatio := ratio, pulseWidth := width } : State).respond r) :=
  ⟨rfl, rfl, rfl, rfl, rfl, rfl, rfl, rfl⟩

theorem exec_setFreq {s : State} {slot : BitVec 8} (h : slot.toNat < s.cfg.maxVoice) (pitch : BitVec 16) (ts : Word) :
    exec (.setFreq slot pitch ts) s =
      .next ((s.setOscAt slot.toNat (setFreqSlot s.wave pitch ts (s.oscAt slot.toNat))).respond 0) :=
  inOscRange_of_lt h _

theorem exec_oscStep {s : State} {slot : BitVec 8} {o : OscSlot} (h : slot.toNat < s.cfg.maxVoice)
    (htick : oscTick s.cfg s.wave s.pulseWidth (s.oscAt slot.toNat) = .ok o) :
    exec (.oscStep slot) s = .next ((s.setOscAt slot.toNat o).respond (sampleResponse o.sample)) :=
  (inOscRange_of_lt h _).trans (congrArg (s.finishOsc slot.toNat) htick)

theorem exec_oscStepFm {s : State} {slot : BitVec 8} {o : OscSlot} (h : slot.toNat < s.cfg.maxVoice)
    (htick : fmTick s.cfg (s.oscAt slot.toNat) = .ok o) :
    exec (.oscStepFm slot) s = .next ((s.setOscAt slot.toNat o).respond (sampleResponse o.sample)) :=
  (inOscRange_of_lt h _).trans (congrArg (s.finishOsc slot.toNat) htick)

/-- What an oscillator step leaves where the file held an entry: the new entry, its sample as the response, and all
else unchanged (R84, R151, R152). -/
theorem setOscAt_respond_sample {s : State} {i : Nat} {o : OscSlot} (hentry : s.osc[i]? = some o) (o' : OscSlot) :
    ((s.setOscAt i o').respond (sampleResponse o'.sample)).osc[i]? = some o' ∧
      ((s.setOscAt i o').respond (sampleResponse o'.sample)).responses = o'.sample.signExtend 32 :: s.responses ∧
      onlyOscWritten i s ((s.setOscAt i o').respond (sampleResponse o'.sample)) :=
  ⟨setOscAt_getElem?_self hentry o', rfl, onlyOscWritten_setOscAt_respond ..⟩

/-- OSCSTEP of a slot with entry `o`, by the tick of `o`: the entry, the response and the frame. -/
theorem exec_oscStep_of_entry {s : State} {slot : BitVec 8} {o : OscSlot} (hslot : slot.toNat < s.cfg.maxVoice)
    (hentry : s.osc[slot.toNat]? = some o) :
    ∃ t o', oscTick s.cfg s.wave s.pulseWidth o = .ok o' ∧ exec (.oscStep slot) s = .next t ∧
      t.osc[slot.toNat]? = some o' ∧ t.responses = o'.sample.signExtend 32 :: s.responses ∧
      onlyOscWritten slot.toNat s t := by
  obtain ⟨o', htick⟩ := oscTick_ok s.cfg s.wave s.pulseWidth o
  exact ⟨_, o', htick, exec_oscStep hslot ((oscAt_eq_of_getElem? hentry).symm ▸ htick),
    setOscAt_respond_sample hentry o'⟩

/-- OSCSTEPFM of a slot with entry `o`, by the tick of `o`: the entry, the response and the frame. -/
theorem exec_oscStepFm_of_entry {s : State} {slot : BitVec 8} {o : OscSlot} (hslot : slot.toNat < s.cfg.maxVoice)
    (hentry : s.osc[slot.toNat]? = some o) :
    ∃ t o', fmTick s.cfg o = .ok o' ∧ exec (.oscStepFm slot) s = .next t ∧
      t.osc[slot.toNat]? = some o' ∧ t.responses = o'.sample.signExtend 32 :: s.responses ∧
      onlyOscWritten slot.toNat s t := by
  obtain ⟨o', htick⟩ := fmTick_ok s.cfg o
  exact ⟨_, o', htick, exec_oscStepFm hslot ((oscAt_eq_of_getElem? hentry).symm ▸ htick),
    setOscAt_respond_sample hentry o'⟩

/-! ## What the step of each engine reads (R159, R200) -/

theorem oscAt_congr {s t : State} (h : t.osc = s.osc) (i : Nat) : t.oscAt i = s.oscAt i := by
  rw [State.oscAt, h, State.oscAt]

/-- ENVSTEP reads the configuration, the parameter sets and the envelope file, so it writes the same entry in every
state that agrees on these. -/
theorem exec_envStep_reads (s : State) {slot : BitVec 8} (cls : ParamClass) (hslot : slot.toNat ≤ s.cfg.maxVoice) :
    ∃ e, ∀ u : State, u.cfg = s.cfg → u.ep cls = s.ep cls → u.env = s.env →
      exec (.envStep slot cls) u = .next ((u.setEnvAt slot.toNat e).respond (amplitudeResponse e.output)) := by
  obtain ⟨e, htick⟩ := envTick_ok s.cfg (s.ep cls) (s.envAt slot.toNat)
  exact ⟨e, fun u hcfg hep henv => exec_envStep (hcfg ▸ hslot) (by rwa [hcfg, hep, envAt_congr henv])⟩

/-- A step of an oscillator reads the configuration, the settings and the oscillator file, so it writes the same entry
in every state that agrees on these. -/
theorem exec_oscillatorStep_reads (s : State) {voice : BitVec 8} {i : Instr} (hvoice : voice.toNat < s.cfg.maxVoice)
    (hi : i = .oscStep voice ∨ i = .oscStepFm voice) :
    ∃ o, ∀ u : State, u.cfg = s.cfg → u.wave = s.wave → u.pulseWidth = s.pulseWidth → u.osc = s.osc →
      exec i u = .next ((u.setOscAt voice.toNat o).respond (sampleResponse o.sample)) := by
  rcases hi with rfl | rfl
  · obtain ⟨o, htick⟩ := oscTick_ok s.cfg s.wave s.pulseWidth (s.oscAt voice.toNat)
    exact ⟨o, fun u hcfg hwave hpw hosc => exec_oscStep (hcfg ▸ hvoice) (by rwa [hcfg, hwave, hpw, oscAt_congr hosc])⟩
  · obtain ⟨o, htick⟩ := fmTick_ok s.cfg (s.oscAt voice.toNat)
    exact ⟨o, fun u hcfg _ _ hosc => exec_oscStepFm (hcfg ▸ hvoice) (by rwa [hcfg, oscAt_congr hosc])⟩

/-! ## The obligations -/

/-- Settles O42: the entry written is that of R141, and the step is not truncated. -/
theorem setFreqStoresTheCarrierStep : Obligations.SetFreqStoresTheCarrierStep := by
  intro s slot pitch ts o hslot hentry
  refine ⟨_, setFreqSlot s.wave pitch ts o, exec_setFreq hslot pitch ts, ?_, toNat_carrierStepOf s.wave pitch, rfl, rfl,
    onlyOscWritten_setOscAt_respond ..⟩
  rw [oscAt_eq_of_getElem? hentry, respond_osc]
  exact setOscAt_getElem?_self hentry _

/-- Settles O44: under each waveform with a table, the sample is that table's entry at the advanced phase's index. -/
theorem oscStepReadsTheActiveTable : Obligations.OscStepReadsTheActiveTable := by
  intro s slot o hslot hentry
  obtain ⟨t, o', htick, hexec, hnew, hresp, hframe⟩ := exec_oscStep_of_entry hslot hentry
  obtain ⟨hphase, hsample, hkept⟩ := oscTick_cases htick
  refine ⟨t, o', hexec, hnew, ?phase, fun hw => ?saw, fun hw => ?sine, fun hw => ?triangle, hkept, hresp, hframe⟩
  case phase => rw [hphase, toNat_advancePhase, range_eq]
  case saw | sine | triangle =>
    rw [hw] at hsample
    exact tableAt_ok hsample

/-- Settles O45: the sample is the square rule's at the advanced phase's index. -/
theorem oscStepSquareFollowsTheThreshold : Obligations.OscStepSquareFollowsTheThreshold := by
  intro s slot o hslot hentry hw
  obtain ⟨t, o', htick, hexec, hnew, hresp, -⟩ := exec_oscStep_of_entry hslot hentry
  obtain ⟨hphase, hsample, -⟩ := oscTick_cases htick
  rw [hw] at hsample
  have hsquare : squareSample s.cfg s.pulseWidth (o'.carrierPhase.toNat / 1024) = o'.sample := Except.ok.inj hsample
  refine ⟨t, o', hexec, hnew, by rw [hphase, toNat_advancePhase], ?_, ?_, hresp⟩ <;>
    rw [← squareThreshold_eq, ← hsquare]
  · exact toInt_squareSample_of_lt
  · exact toInt_squareSample_of_le

/-- Settles O46, by the three cases of part 1, whose depth envelope the other parts keep. -/
theorem oscStepFmDepthEnvelope : Obligations.OscStepFmDepthEnvelope := by
  intro s slot o hslot hentry
  obtain ⟨t, o', htick, hexec, hnew, -⟩ := exec_oscStepFm_of_entry hslot hentry
  refine ⟨t, o', hexec, hnew, fun d hbelow ht hd => ?advance, fun hbelow ht => ?crossing, fun hheld => ?held⟩
  case advance =>
    have hread := decRead_of_getElem? (index_lt_of_lt_vtim ht) hd
    obtain ⟨hphase, hdepth⟩ := fmTick_modEnv htick (modEnvTick_of_lt hbelow ht hread)
    exact ⟨hphase ▸ toNat_truncU_of_lt (ht.trans (by decide)), hdepth.trans (fmDepth_eq ..)⟩
  case crossing =>
    obtain ⟨hphase, hdepth⟩ := fmTick_modEnv htick (modEnvTick_of_crossing hbelow ht)
    exact ⟨hphase ▸ toNat_truncU_of_lt (by decide), hdepth ▸ toInt_fmEndDepthOf s.cfg⟩
  case held => exact fmTick_modEnv htick (modEnvTick_of_held hheld)

/-- Settles O47: the phases are those of part 2, which part 1 does not write. -/
theorem oscStepFmAdvancesBothPhases : Obligations.OscStepFmAdvancesBothPhases := by
  intro s slot o hslot hentry
  obtain ⟨t, o', htick, hexec, hnew, hresp, hframe⟩ := exec_oscStepFm_of_entry hslot hentry
  obtain ⟨hcarrier, hmodulator, hkept⟩ := fmTick_phases htick
  exact ⟨t, o', hexec, hnew, hcarrier ▸ toNat_advancePhase .sine .., hmodulator ▸ toNat_advancePhase .sine .., hkept,
    hresp, hframe⟩

/-- Settles O48: the lookups read the phases and the depth that the entry is left with. -/
theorem oscStepFmOutputLookup : Obligations.OscStepFmOutputLookup := by
  intro s slot o hslot hentry
  obtain ⟨t, o', htick, hexec, hnew, -⟩ := exec_oscStepFm_of_entry hslot hentry
  obtain ⟨o1, -, hlookup⟩ := fmTick_cases htick
  obtain ⟨m, hmod, hout, hkept⟩ := fmLookup_cases hlookup
  have hcarrier : o'.carrierPhase = (fmPhases o1).carrierPhase := by rw [hkept]
  have hmodulator : o'.modulatorPhase = (fmPhases o1).modulatorPhase := by rw [hkept]
  have hdepth : o'.currentModVolume = (fmPhases o1).currentModVolume := by rw [hkept]
  refine ⟨t, o', m, hexec, hnew, hmodulator ▸ hmod, ?_⟩
  rwa [← hcarrier, ← hdepth, fmIndex, phaseIndex_eq, fmOffset_eq, range_eq] at hout

/-- Settles O49: neither step writes what the other reads, and the two write different files. -/
theorem enginesCommute : Obligations.EnginesCommute := by
  intro s slot voice cls i hslot hvoice hi
  obtain ⟨e, henvStep⟩ := exec_envStep_reads s cls hslot
  obtain ⟨o, hoscStep⟩ := exec_oscillatorStep_reads s hvoice hi
  have hep : ((s.setOscAt voice.toNat o).respond (sampleResponse o.sample)).ep cls = s.ep cls :=
    (ep_respond ..).trans (by cases cls <;> rfl)
  exact ⟨_, _, _, _, _, _, henvStep s rfl rfl rfl, hoscStep _ rfl rfl rfl rfl, hoscStep s rfl rfl rfl rfl,
    henvStep _ rfl hep rfl, rfl, rfl, rfl⟩

/-- Settles O39: SELWAVE writes one of the three settings. -/
theorem selWaveSetsTheWaveform : Obligations.SelWaveSetsTheWaveform :=
  fun s kind => ⟨_, rfl, rfl, rfl, rfl, rfl, onlySettingsWritten_respond s kind s.modRatio s.pulseWidth 0⟩

/-- Settles O40: SETMODRATIO writes one of the three settings. -/
theorem setModRatioSetsTheRatio : Obligations.SetModRatioSetsTheRatio :=
  fun s ratio => ⟨_, rfl, rfl, rfl, rfl, rfl, onlySettingsWritten_respond s s.wave ratio s.pulseWidth 0⟩

/-- Settles O41: SETPW writes one of the three settings. -/
theorem setPwSetsThePulseWidth : Obligations.SetPwSetsThePulseWidth :=
  fun s width => ⟨_, rfl, rfl, rfl, rfl, rfl, onlySettingsWritten_respond s s.wave s.modRatio width 0⟩

end Sys2Proof.Machine

/-! PROOFS, family `60_exceptions`: the record of a fault is all that a rejected word does, and the idle step. -/

/-! ## The cells of `STATUS` after a fault (R45, R172) -/

namespace Sys2Proof.Machine

/-- The recording of a fault sets no reserved bit of `STATUS`: its cells hold just what a reader sees. -/
theorem status_recordFault (s : State) (k : FaultKind) (w : Word) :
    (s.recordFault k w).status = s.readStatus ||| k.statusBit := by
  obtain ⟨hcells, -⟩ := faultRegsSound_recordFault s k w
  exact hcells.trans (readStatus_recordFault s k w)

/-! ## The obligations -/

/-- Settles O11: whichever of the three tests rejects the word, the transaction is the record of that fault and nothing
more, and what the record writes and keeps is known field by field. -/
theorem rejectedWordRecordsItsFault : Obligations.RejectedWordRecordsItsFault := by
  intro s c k hfault
  have hrun : transact c s = .next (s.recordFault k c.cmd) := transact_of_faultClass_some hfault
  refine ⟨s.recordFault k c.cmd, hrun, status_recordFault .., readStatus_recordFault .., recordFault_faultCmd ..,
    recordFault_responses .., ?frame⟩
  case frame =>
    exact ⟨recordFault_cfg .., recordFault_epVoice .., recordFault_epFilter .., recordFault_env .., recordFault_osc ..,
      recordFault_wave .., recordFault_modRatio .., recordFault_pulseWidth .., recordFault_inbox ..⟩

/-- Settles O8: the branch of the step for an empty queue. -/
theorem stepIdlesWithNothingPresented : Obligations.StepIdlesWithNothingPresented :=
  fun _ => step_of_inbox_nil

end Sys2Proof.Machine

/-! PROOFS, family `70_reset_and_hazards`: the values a hardware reset sets and what it leaves to the host, and the
responses of a block that has received nothing but steps since its reset. -/

/-! ## The reset pulse (R52, R190, R209) -/

namespace Sys2Proof.Machine

@[simp] theorem readStatus_resetWith (c : Config) : (State.resetWith c).readStatus = 0 :=
  BitVec.zero_and

/-- Either slot file of the reset state holds the same entry throughout. -/
theorem atResetValues_resetWith (c : Config) : (State.resetWith c).atResetValues := by
  refine ⟨⟨List.length_replicate, List.length_replicate⟩, fun j hj => ?_, fun j hj => ?_,
    rfl, rfl, rfl, rfl, rfl, readStatus_resetWith c, rfl, rfl⟩
  · exact List.getElem?_replicate_of_lt (Nat.lt_succ_of_le hj)
  · exact List.getElem?_replicate_of_lt hj

/-- The pulse differs from power-up in the host's record alone, which is no architectural state. -/
theorem atResetValues_hardwareReset (s : State) : s.hardwareReset.atResetValues :=
  atResetValues_resetWith s.cfg

theorem step_of_inbox_reset {s : State} {rest : List HostInput} (h : s.inbox = .reset :: rest) :
    step s = .next (State.hardwareReset { s with inbox := rest }) :=
  step_of_inbox_cons h

/-! ## Any number of OSCSTEPs (R151) -/

/-- If every tick under the settings as they stand keeps `Q` of the entry and computes the sample `smp`, then any
number of OSCSTEPs return it. -/
theorem execTimes_oscStep_repeats {Q : OscSlot → Prop} {smp : BitVec 16} {s : State} {slot : BitVec 8} {o : OscSlot}
    (hslot : slot.toNat < s.cfg.maxVoice) (hentry : s.osc[slot.toNat]? = some o) (hQ : Q o)
    (htick : ∀ x x', Q x → oscTick s.cfg s.wave s.pulseWidth x = .ok x' → Q x' ∧ x'.sample = smp) (n : Nat) :
    ∃ t, execTimes (.oscStep slot) n s = .next t ∧
      t.responses = List.replicate n (smp.signExtend 32) ++ s.responses := by
  induction n generalizing s o with
  | zero => exact ⟨s, rfl, rfl⟩
  | succ n ih =>
    obtain ⟨u, o', hrun, hfirst, hentry', hresp, hcfg, -, -, -, hwave, -, hpw, -⟩ := exec_oscStep_of_entry hslot hentry
    obtain ⟨hQ', hsmp⟩ := htick o o' hQ hrun
    obtain ⟨t, hrest, hall⟩ := ih (hcfg ▸ hslot) hentry' hQ' (by rwa [hcfg, hwave, hpw])
    refine ⟨t, (execTimes_succ_of_next hfirst n).trans hrest, ?_⟩
    rw [hall, hresp, hsmp, List.replicate_succ', List.append_assoc, List.singleton_append]

/-! ## The steps of a block just reset (R192) -/

theorem waveSample_saw_of_lt (c : Config) (pw : BitVec 12) {i : Nat} (h : i < 4096) :
    waveSample c pw .saw i = .ok c.sawTable[i] :=
  tableAt_of_lt h

/-- An oscillator at phase 0 whose step is 0, as reset leaves it. -/
def OscSlot.atRest (o : OscSlot) : Prop :=
  o.carrierPhase = 0 ∧ o.carrierStep = 0

theorem OscSlot.atRest_reset : OscSlot.reset.atRest :=
  ⟨rfl, rfl⟩

/-- Under Saw the phase of an oscillator at rest advances to 0 again, so the read is at index 0. -/
theorem OscSlot.atRest.tick_saw {c : Config} {pw : BitVec 12} {o o' : OscSlot} (ho : o.atRest)
    (h : oscTick c .saw pw o = .ok o') : o'.atRest ∧ o'.sample = c.sawTable[0] := by
  obtain ⟨hphase, hstep⟩ := ho
  obtain ⟨hadvanced, hread, hkept⟩ := oscTick_cases h
  have hphase' : o'.carrierPhase = 0 := by
    rw [hadvanced, hphase, hstep]
    rfl
  have hindexZero : waveSample c pw .saw 0 = .ok c.sawTable[0] := waveSample_saw_of_lt c pw (by decide)
  rw [hphase'] at hread
  refine ⟨⟨hphase', ?_⟩, Except.ok.inj (hread.symm.trans hindexZero)⟩
  rw [hkept]
  exact hstep

/-- A slot in STOP with output 0 is written back as it was read, so it returns 0 each time. -/
theorem execTimes_envStep_resetWith {c : Config} {slot : BitVec 8} (cls : ParamClass) (hslot : slot.toNat ≤ c.maxVoice)
    (n : Nat) :
    ∃ t, execTimes (.envStep slot cls) n (State.resetWith c) = .next t ∧ t.responses = List.replicate n 0 := by
  have hentry : (State.resetWith c).env[slot.toNat]? = some .reset :=
    List.getElem?_replicate_of_lt (Nat.lt_succ_of_le hslot)
  have hidle (x x' : EnvSlot) (hx : x = .reset) (htick : envTick c ((State.resetWith c).ep cls) x = .ok x') :
      x' = .reset ∧ amplitudeResponse x'.output = 0 := by
    subst hx
    obtain rfl := Except.ok.inj ((envTick_silent (.inl rfl)).symm.trans htick)
    exact ⟨rfl, rfl⟩
  obtain ⟨t, hexec, -, hresp⟩ := execTimes_envStep_repeats (Q := (· = .reset)) hslot hentry rfl hidle n
  exact ⟨t, hexec, hresp.trans (List.append_nil _)⟩

theorem execTimes_oscStep_resetWith {c : Config} {slot : BitVec 8} (hslot : slot.toNat < c.maxVoice) (n : Nat) :
    ∃ t, execTimes (.oscStep slot) n (State.resetWith c) = .next t ∧
      t.responses = List.replicate n ((c.sawTable[0]).signExtend 32) := by
  have hentry : (State.resetWith c).osc[slot.toNat]? = some .reset := List.getElem?_replicate_of_lt hslot
  obtain ⟨t, hexec, hresp⟩ := execTimes_oscStep_repeats hslot hentry OscSlot.atRest_reset
    (fun _ _ ho htick => ho.tick_saw htick) n
  exact ⟨t, hexec, hresp.trans (List.append_nil _)⟩

/-! ## The obligations -/

/-- Settles O53, by induction on the number of steps: each leaves a fresh entry where it found it. -/
theorem freshBlockReturnsIndexZero : Obligations.FreshBlockReturnsIndexZero :=
  fun _ n => ⟨fun _ cls hslot => execTimes_envStep_resetWith cls hslot n,
    fun _ hslot => execTimes_oscStep_resetWith hslot n⟩

/-- Settles O9: power-up and the pulse give the same architectural state, built from the configuration alone. -/
theorem resetSetsEveryRegister : Obligations.ResetSetsEveryRegister :=
  ⟨atResetValues_resetWith _, fun _ _ hinbox =>
    ⟨_, step_of_inbox_reset hinbox, atResetValues_hardwareReset _, hardwareReset_cfg _⟩⟩

/-- Settles O10: the pulse is taken from the queue before it acts, and it acts on neither of the host's lists. -/
theorem resetInputKeepsTheHostsRecord : Obligations.ResetInputKeepsTheHostsRecord :=
  fun _ _ hinbox => ⟨_, step_of_inbox_reset hinbox, hardwareReset_inbox _, hardwareReset_responses _⟩

end Sys2Proof.Machine
